-- ==== Sys2Proof/Word.lean ====
section
/-! DEFINITION. The words of the hardware: a byte, a 16-bit address or length, the command word CW, the primitive
request word PW (spec 30_encoding R81, R85). -/

namespace Sys2Proof

/-- One byte of the device space, of BUF, of a PW argument and of RSP (R50, R51, R85). -/
abbrev Byte := BitVec 8

/-- A 16-bit device address or length (R9, R13). -/
abbrev Half := BitVec 16

/-- A command word, `{rd, blk, addr[15:0], len[15:0]}` (R81). -/
abbrev CmdWord := BitVec 34

/-- A primitive request word, `{code[3:0], arg[7:0]}` (R85). -/
abbrev ReqWord := BitVec 12

/-- A code word of either format: the host's command word or the block's request word (R80). -/
inductive CodeWord where
  | cw (w : CmdWord)
  | pw (w : ReqWord)
  deriving DecidableEq, Repr

end Sys2Proof
end

