-- ==== Sys2Proof/Syntax.lean ====
section
/-! DEFINITION. The instructions: the four host commands (format CW, R82) and the fourteen primitive requests
(format PW, R86), one constructor per row of spec/opcode_table.json. -/

namespace Sys2Proof

/-- The intent sent with the device address: "0 for Write and 1 for Read" (R87). -/
inductive Intent where
  | write
  | read
  deriving DecidableEq, Repr

/-- The eighteen instructions. The byte commands keep the `len` field of their word, which is ignored (R84). -/
inductive Instr where
  /-- `write_byte`, op 00 (R197). -/
  | writeByte (addr len : Half)
  /-- `write_block`, op 01 (R190). -/
  | writeBlock (addr len : Half)
  /-- `read_byte`, op 10 (R187). -/
  | readByte (addr len : Half)
  /-- `read_block`, op 11 (R180). -/
  | readBlock (addr len : Half)
  /-- `bus_start` (R102). -/
  | busStart
  /-- `bus_stop` (R103). -/
  | busStop
  /-- `bus_send_address` (R104). -/
  | busSendAddress (addr7 : BitVec 7) (intent : Intent)
  /-- `bus_send_byte` (R105). -/
  | busSendByte (b : Byte)
  /-- `bus_recv_byte` (R106). -/
  | busRecvByte
  /-- `bus_set_ack` (R107). -/
  | busSetAck (enabled : Bool)
  /-- `bus_clear_nack` (R108). -/
  | busClearNack
  /-- `q_st_sent` (R109). -/
  | qStSent
  /-- `q_ad_done` (R110). -/
  | qAdDone
  /-- `q_ad_nack` (R111). -/
  | qAdNack
  /-- `q_tx_empty` (R112). -/
  | qTxEmpty
  /-- `q_rx_full` (R113). -/
  | qRxFull
  /-- `q_ct_busy` (R114). -/
  | qCtBusy
  /-- `q_ct_master` (R114). -/
  | qCtMaster
  deriving DecidableEq, Repr

end Sys2Proof
end

