-- ==== Sys2Proof/Decode.lean ====
section
/-! DEFINITION. The decoder of both formats, total and rejecting by name, and after it the encoder, each from the
tables of 30_encoding.md (R81, R82, R85, R86, R87). -/

namespace Sys2Proof

/-- The host commands, format CW (R82). -/
def Instr.isCommand : Instr → Bool
  | .writeByte _ _ | .writeBlock _ _ | .readByte _ _ | .readBlock _ _ => true
  | .busStart | .busStop | .busSendAddress _ _ | .busSendByte _ | .busRecvByte | .busSetAck _ | .busClearNack
  | .qStSent | .qAdDone | .qAdNack | .qTxEmpty | .qRxFull | .qCtBusy | .qCtMaster => false

/-- The seven status queries, each returning one flag in `RSP[0]` (R86). -/
def Instr.isQuery : Instr → Bool
  | .qStSent | .qAdDone | .qAdNack | .qTxEmpty | .qRxFull | .qCtBusy | .qCtMaster => true
  | .writeByte _ _ | .writeBlock _ _ | .readByte _ _ | .readBlock _ _
  | .busStart | .busStop | .busSendAddress _ _ | .busSendByte _ | .busRecvByte | .busSetAck _ | .busClearNack => false

/-- Why a word is no instruction. -/
inductive Reject where
  /-- PW codes 0x7 and 0xF are reserved (R93). -/
  | reservedCode (code : BitVec 4)
  /-- A non-zero argument bit where R86 fixes it at 0. -/
  | argumentNotZero (code : BitVec 4)
  /-- A number of bits that is neither a command word's nor a request word's (R94). -/
  | noSuchWidth (nbits : Nat)
  /-- A bit set above the word's own width. -/
  | bitsAboveWord
  deriving DecidableEq, Repr

/-- The intent bit: 0 for Write, 1 for Read (R87). -/
def Intent.ofBit (b : Bool) : Intent := if b then .read else .write

/-- The intent bit as a number. -/
def Intent.bit : Intent → BitVec 1
  | .write => 0
  | .read => 1

/-- A command word: `rd` is bit 33, `blk` bit 32, `addr` bits 31 to 16, `len` bits 15 to 0 (R81, R82). Every word is a
command (R92). -/
def decodeCw (w : CmdWord) : Instr :=
  let addr : Half := w.extractLsb' 16 16
  let len : Half := w.extractLsb' 0 16
  match w.getLsbD 33, w.getLsbD 32 with
  | false, false => .writeByte addr len
  | false, true => .writeBlock addr len
  | true, false => .readByte addr len
  | true, true => .readBlock addr len

/-- A request without operand: its argument is 0 (R86). -/
def plainRequest (code : BitVec 4) (arg : Byte) (i : Instr) : Except Reject Instr :=
  if arg = 0 then .ok i else .error (.argumentNotZero code)

/-- A request word: `code` is bits 11 to 8, `arg` bits 7 to 0 (R85, R86). -/
def decodePw (w : ReqWord) : Except Reject Instr :=
  let code : BitVec 4 := w.extractLsb' 8 4
  let arg : Byte := w.extractLsb' 0 8
  match code.toNat with
  | 0x0 => plainRequest code arg .busStart
  | 0x1 => plainRequest code arg .busStop
  | 0x2 => .ok (.busSendAddress (arg.extractLsb' 1 7) (.ofBit (arg.getLsbD 0)))
  | 0x3 => .ok (.busSendByte arg)
  | 0x4 => plainRequest code arg .busRecvByte
  | 0x5 => if arg.extractLsb' 1 7 = 0 then .ok (.busSetAck (arg.getLsbD 0)) else .error (.argumentNotZero code)
  | 0x6 => plainRequest code arg .busClearNack
  | 0x8 => plainRequest code arg .qStSent
  | 0x9 => plainRequest code arg .qAdDone
  | 0xA => plainRequest code arg .qAdNack
  | 0xB => plainRequest code arg .qTxEmpty
  | 0xC => plainRequest code arg .qRxFull
  | 0xD => plainRequest code arg .qCtBusy
  | 0xE => plainRequest code arg .qCtMaster
  | _ => .error (.reservedCode code)

/-- A code word of either format. -/
def decode : CodeWord → Except Reject Instr
  | .cw w => .ok (decodeCw w)
  | .pw w => decodePw w

/-- A word given as a number of `nbits` bits: 12 bits (or the two bytes that hold them) are a request, 34 bits (or the
five bytes) a command; all other widths are rejected (R94). DESIGN CHOICE (log entry 9), safe: the byte
containers. -/
def decodeBits (nbits w : Nat) : Except Reject Instr :=
  if nbits = 12 ∨ nbits = 16 then
    if w < 2 ^ 12 then decodePw (BitVec.ofNat 12 w) else .error .bitsAboveWord
  else if nbits = 34 ∨ nbits = 40 then
    if w < 2 ^ 34 then .ok (decodeCw (BitVec.ofNat 34 w)) else .error .bitsAboveWord
  else .error (.noSuchWidth nbits)

/-- The instruction the decoder reads from the table's numbering of bits, `none` where it refuses. -/
def decodeTableWord (nbits w : Nat) : Option Instr :=
  (decodeBits nbits w).toOption

/-! ### The encoder -/

/-- A command word put together from its fields (R81). -/
def commandWord (rd blk : BitVec 1) (addr len : Half) : CmdWord := rd ++ blk ++ addr ++ len

/-- A request word put together from its fields (R85). -/
def requestWord (code : BitVec 4) (arg : Byte) : ReqWord := code ++ arg

/-- The word of an instruction (R82, R86, R87). -/
def encode : Instr → CodeWord
  | .writeByte addr len => .cw (commandWord 0 0 addr len)
  | .writeBlock addr len => .cw (commandWord 0 1 addr len)
  | .readByte addr len => .cw (commandWord 1 0 addr len)
  | .readBlock addr len => .cw (commandWord 1 1 addr len)
  | .busStart => .pw (requestWord 0x0 0)
  | .busStop => .pw (requestWord 0x1 0)
  | .busSendAddress addr7 intent => .pw (requestWord 0x2 (addr7 ++ intent.bit))
  | .busSendByte b => .pw (requestWord 0x3 b)
  | .busRecvByte => .pw (requestWord 0x4 0)
  | .busSetAck enabled => .pw (requestWord 0x5 ((0 : BitVec 7) ++ BitVec.ofBool enabled))
  | .busClearNack => .pw (requestWord 0x6 0)
  | .qStSent => .pw (requestWord 0x8 0)
  | .qAdDone => .pw (requestWord 0x9 0)
  | .qAdNack => .pw (requestWord 0xA 0)
  | .qTxEmpty => .pw (requestWord 0xB 0)
  | .qRxFull => .pw (requestWord 0xC 0)
  | .qCtBusy => .pw (requestWord 0xD 0)
  | .qCtMaster => .pw (requestWord 0xE 0)

/-- The request word of a primitive call; a host command has none. -/
def Instr.request (i : Instr) : Option ReqWord :=
  match encode i with
  | .pw w => some w
  | .cw _ => none

end Sys2Proof
end

