-- ==== Sys2Proof/Config.lean ====
section
/-! DEFINITION. The implementation parameters R7 to R14 and the free values the spec leaves open. -/

namespace Sys2Proof

/-- A bound of a wait or of the poll: "Either a natural number >= 1 or the value `none`" (R11, R12).
`bounded k` is the number `k + 1`, so no value of the type stands for 0. -/
inductive Limit where
  | unbounded
  | bounded (k : Nat)
  deriving DecidableEq, Repr

/-- The bound as the spec writes it: `none` or the number. -/
def Limit.value : Limit → Option Nat
  | .unbounded => none
  | .bounded k => some (k + 1)

/-- The parameters (R7 to R14): fixed before the first command, never changed while the block is out of reset (D29).
`pageLog` is the base-2 logarithm of PAGE_SIZE, so that a page size that is not a power of two in 1..65536 has no
representation (R7; U10: "`refuse` the configuration"). -/
structure Config where
  pageLog : Fin 17
  devAddr : BitVec 7
  capacity : Nat
  waitLimit : Limit
  pollLimit : Limit
  bufSize : Nat
  deriving DecidableEq, Repr

/-- PAGE_SIZE (R7). -/
def Config.pageSize (c : Config) : Nat := 2 ^ c.pageLog.val

/-- ADDR_BYTES, the number of address bytes sent after the device address (R9). -/
def Config.addrBytes : Nat := 2

/-- LEN_BITS, the width of a length (R13). -/
def Config.lenBits : Nat := 16

/-- The parameter values of `State.reset`: those of program P1 of 95_test_vectors.md, and the largest buffer.
DESIGN CHOICE (log entry 6): the spec leaves every value OPEN, and statements hold for every value. -/
def Config.sample : Config :=
  { pageLog := 8, devAddr := 0x50, capacity := 1024, waitLimit := .bounded 3, pollLimit := .bounded 7,
    bufSize := 65536 }

/-- FREE VALUE (log entry 2): what the environment answers to the `n`-th answer-giving call. "A model draws it from
the oracle at each call, under no law" (40_bus_primitives section 3; R106, U11). -/
opaque Config.freeReply : Nat → Byte

/-- What is free of the environment after a call: its flags, the device's bytes (as writes, in order), its address pointer and
its write cycle (R28, R42, R43, R47). -/
structure FreeEnv where
  stSent : Bool
  adDone : Bool
  adNack : Bool
  txEmpty : Bool
  rxFull : Bool
  ctBusy : Bool
  ctMaster : Bool
  writes : List (Nat × Byte)
  ptr : Half
  wbusy : Nat
  deriving DecidableEq, Repr, Inhabited

/-- FREE VALUE (log entries 2 and 19): where the environment stands after the `n`-th call. R78: no model may assume that a
flag stays set, that a write cycle has a fixed length, or that the device's memory is unchanged by a unit without its stop. -/
opaque Config.freeEnv : Nat → FreeEnv

/-- FREE VALUE (log entry 2): what a read of CMD returns, "an unspecified value" (R34, U16). -/
opaque Config.freeCmdRead : Nat → CmdWord

end Sys2Proof
end

