-- ==== Sys2Proof/Machine/State.lean ====
section
/-! DEFINITION. All the state the spec gives the block, its interfaces, its environment and its host (R20 to R48,
R70, R85), the reasons a step can stop, and the state after reset (R250). -/

namespace Sys2Proof.Machine

/-- PHASE, the block's program counter (R26): one value per step of the fixed micro-program. -/
inductive Phase where
  | idle
  | u1Start | u1Wait | u2Addr | u2Wait | u3Check | u4Hi | u4HiWait | u4Lo | u4LoWait
  | w5Data | w5Wait
  | r5Start | r5Wait | r6Addr | r6Wait | r7Check | r7AckOn | r7AckOff | r7Wait | r7Recv
  | uStop | uStopWait
  | pStart | pStartWait | pAddr | pAddrWait | pStop | pStopWait | pClear
  deriving DecidableEq, Repr

/-- RESULT, the Transaction Outcome (R31, R220). -/
inductive Result where
  | ok
  | notAcknowledged
  | busFault
  | timeout
  deriving DecidableEq, Repr

/-- Which environment answers the block: any (the oracle of R6) or the deterministic one of R70 to R77. -/
inductive EnvKind where
  | oracle
  | reference
  deriving DecidableEq, Repr

/-- MODE of the reference device (R70). -/
inductive DevMode where
  | idle
  | wAddr0
  | wAddr1
  | wData
  | rData
  deriving DecidableEq, Repr

/-- The environment's state: the seven controller flags and ACK_EN (R28, R29), the device present or absent, its memory,
address pointer, write cycle, mode, latch and data register (R42, R43, R47, R70). In the oracle kind a call
leaves the flags, the memory, the pointer and the write cycle at free values (R78), but for a queried flag, which is what was
answered; mode, latch and data register are the reference device's own and play no part. -/
structure Env where
  kind : EnvKind
  stSent : Bool
  adDone : Bool
  adNack : Bool
  txEmpty : Bool
  rxFull : Bool
  ctBusy : Bool
  ctMaster : Bool
  ackEn : Bool
  present : Bool
  wcNacks : Nat
  mem : List Host.Cell
  ptr : Half
  wbusy : Nat
  mode : DevMode
  latch : List Host.Cell
  dr : Byte
  deriving DecidableEq, Repr

/-- One move of the outside world at the block's host interface (R6, R34 to R40, R250; `call` and `setPresent`: program P3
of 95_test_vectors.md). `waitDone` is "read STATUS until DONE"; `pause n` lets the block take `n` steps first. -/
inductive HostMove where
  | writeCmd (w : CmdWord)
  | readCmd
  | readStatus
  | writeStatus (v : BitVec 4)
  | writeBuf (index : Half) (v : Byte)
  | readBuf (index : Half)
  | waitDone
  | pause (n : Nat)
  | call (w : ReqWord)
  | setPresent (b : Bool)
  | reset
  deriving DecidableEq, Repr

/-- Why the machine stops with a fault. -/
inductive Fault where
  /-- Raised by the block's `BufRead` and by the host's read of BUF when the byte at `index` has not been written since
  reset: it "holds no value", "a model faults or refuses rather than pick a value" (R40, U5). Safe: the hardware would
  send some byte, and nothing is claimed of it. -/
  | bufHoldsNoValue (index : Nat)
  deriving DecidableEq, Repr

/-- Why the model gives a step no meaning. -/
inductive Refusal where
  /-- Raised by no meaning: an arm of `exec` not written yet. Safe. -/
  | notModelled (mnemonic : String)
  /-- Raised by an access to BUF at or beyond BUF_SIZE: it "has no meaning and a model refuses such a command" (R263, U14).
  Safe. -/
  | bufIndexBeyondSize (index : Nat)
  /-- Raised by a primitive call that is not the one the running command makes: while BUSY = 1 the block is the sole
  owner of the bus controller (R101, R260; U4: `refuse`). Safe. -/
  | busInUse
  /-- Raised by the host reading or writing BUF while BUSY = 1 (R261; U8: `refuse`). Safe. -/
  | bufLent
  /-- Raised by an outside call whose request word is no primitive: codes 0x7 and 0xF are reserved, "A bus controller may
  treat them in any way" (R93). Safe. -/
  | noSuchPrimitive (w : ReqWord)
  deriving DecidableEq, Repr

/-- The machine's state. -/
structure State where
  /-- the parameters (R7 to R14); no step changes them -/
  cfg : Config
  /-- PHASE (R26) -/
  phase : Phase
  /-- OP (R25) -/
  op : BitVec 2
  /-- ADDR (R20) -/
  addr : Half
  /-- CUR (R21) -/
  cur : Half
  /-- REM (R22) -/
  rem : Half
  /-- CHUNK (R23) -/
  chunk : Half
  /-- IDX (R24) -/
  idx : Half
  /-- NACKED (R30) -/
  nacked : Bool
  /-- RESULT (R31) -/
  result : Result
  /-- BUSY (R35) -/
  busy : Bool
  /-- DONE (R35) -/
  done : Bool
  /-- WCNT (R32) -/
  wcnt : Nat
  /-- PCNT (R33) -/
  pcnt : Nat
  /-- BUF (R39): the bytes written since reset, by rising index -/
  buf : List Host.Cell
  /-- the first answer of a sample round of two queries, once it is taken (R17, R120; log entry 8) -/
  first : Option Bool
  /-- PW of the last primitive call (R85) -/
  pw : Option ReqWord
  /-- RSP of the last primitive call (R85) -/
  rsp : Byte
  /-- the environment (R6, R47) -/
  env : Env
  /-- answers forced on the coming answer-giving calls, one entry a call (R77; log entry 7) -/
  forced : List (Option Byte)
  /-- how many calls and reads of CMD have taken free values (log entry 2) -/
  draws : Nat
  /-- the host's coming moves, oldest first (R6; log entry 10) -/
  host : List HostMove
  /-- what the host's last read returned (log entry 10) -/
  rdata : CmdWord
  deriving DecidableEq, Repr

/-- The environment beside `State.reset`: any answers, an idle bus, the initial values of R70. DESIGN CHOICE
(log entry 5), unsafe. -/
def Env.initial : Env :=
  { kind := .oracle, stSent := false, adDone := false, adNack := false, txEmpty := false, rxFull := false,
    ctBusy := false, ctMaster := false, ackEn := true, present := true, wcNacks := 0, mem := [], ptr := 0,
    wbusy := 0, mode := .idle, latch := [], dr := 0 }

/-- The block right after reset with the parameters `c` (R250): PHASE, BUSY, DONE, RESULT and BUF as the rule says; the
registers it calls unspecified hold 0. DESIGN CHOICE (log entry 1), unsafe. -/
def State.resetWith (c : Config) : State :=
  { cfg := c, phase := .idle, op := 0, addr := 0, cur := 0, rem := 0, chunk := 0, idx := 0, nacked := false,
    result := .ok, busy := false, done := false, wcnt := 0, pcnt := 0, buf := [], first := none, pw := none,
    rsp := 0, env := Env.initial, forced := [], draws := 0, host := [], rdata := 0 }

/-- The machine right after reset (R250), with the parameters of `Config.sample` (log entry 6). -/
def State.reset : State := State.resetWith Config.sample

end Sys2Proof.Machine
end

