-- ==== Sys2Proof/Machine/Flags.lean ====
section
/-! DEFINITION. Every flag and condition of the spec: the STATUS word (R35), the failure codes (R220), the conditions a
sample round is judged by (R120), the bounds (R121, R200). -/

namespace Sys2Proof.Machine

/-- The code of a result in `STATUS[3:2]` (R220). -/
def Result.code : Result → BitVec 2
  | .ok => 0
  | .notAcknowledged => 1
  | .busFault => 2
  | .timeout => 3

/-- STATUS: bit 0 BUSY, bit 1 DONE, bits 3 to 2 RESULT (R35). -/
def State.status (s : State) : BitVec 4 :=
  s.result.code ++ BitVec.ofBool s.done ++ BitVec.ofBool s.busy

/-- `OP[1]` = 1 for a read (R25). -/
def State.isRead (s : State) : Bool := s.op.getLsbD 1

/-- The flag a status query returned, `RSP[0]` (R85). -/
def State.flag (s : State) : Bool := s.rsp.getLsbD 0

/-- The first answer of the current sample round. -/
def State.firstFlag (s : State) : Bool := s.first.getD false

/-- `C_ADDR_ANY` holds when either sample is 1 (R120). -/
def condAddrAny (adDone adNack : Bool) : Bool := adDone || adNack

/-- `IDLE_COND` holds when both samples are 0 (R120). -/
def condIdle (ctBusy ctMaster : Bool) : Bool := !ctBusy && !ctMaster

/-- `ACTIVE_COND` holds when both samples are 1 (R120). -/
def condActive (ctBusy ctMaster : Bool) : Bool := ctBusy && ctMaster

/-- Whether a count has come up to a bound (R121, R200); `none` is never reached. DESIGN CHOICE (log entry 17), safe: at or
above, where the rules write equal. -/
def reached (l : Limit) (count : Nat) : Bool :=
  match l with
  | .unbounded => false
  | .bounded k => decide (k + 1 ≤ count)

/-- The first failure wins: `if RESULT = OK then RESULT <- E` (R230). -/
def firstFailure (old new : Result) : Result := if old = .ok then new else old

end Sys2Proof.Machine
end

