-- ==== Sys2Proof/Machine/Operands.lean ====
section
/-! DEFINITION. Memories, page arithmetic and every operand form: the bytes of ADDR, the buffer byte, the device address
with its intent; and which primitive each phase issues with which operands (R26, R87). -/

namespace Sys2Proof.Machine

/-! ### Memories: lists of cells, addresses strictly rising, no entry equal to what an unlisted address reads as -/

/-- The listed byte at `a`, if there is one. -/
def Memory.listed : List Host.Cell → Nat → Option Byte
  | [], _ => none
  | (k, v) :: m, a => if a = k then some v else Memory.listed m a

/-- What address `a` reads as, where an unlisted address reads as `blank`. -/
def Memory.read (blank : Option Byte) (m : List Host.Cell) (a : Nat) : Option Byte :=
  (Memory.listed m a).or blank

/-- List `v` at `a`, in place. -/
def Memory.put : List Host.Cell → Nat → Byte → List Host.Cell
  | [], a, v => [(a, v)]
  | (k, w) :: m, a, v =>
    if a < k then (a, v) :: (k, w) :: m
    else if a = k then (a, v) :: m
    else (k, w) :: Memory.put m a v

/-- Unlist `a`. -/
def Memory.drop : List Host.Cell → Nat → List Host.Cell
  | [], _ => []
  | (k, w) :: m, a => if a = k then m else (k, w) :: Memory.drop m a

/-- Write `v` at `a`: writing what an unlisted address reads as removes the entry. -/
def Memory.write (blank : Option Byte) (m : List Host.Cell) (a : Nat) (v : Byte) : List Host.Cell :=
  if blank = some v then Memory.drop m a else Memory.put m a v

/-- The canonical memory that a list of writes, in order, leaves of an empty one. -/
def Memory.canonical (blank : Option Byte) (writes : List Host.Cell) : List Host.Cell :=
  writes.foldl (fun m c => Memory.write blank m c.1 c.2) []

/-- Every listed address is greater than `a`. -/
def Memory.above (a : Nat) (m : List Host.Cell) : Bool := m.all (fun c => decide (a < c.1))

/-- Addresses strictly rising. -/
def Memory.rising : List Host.Cell → Bool
  | [] => true
  | (k, _) :: m => Memory.above k m && Memory.rising m

/-- The canonical form. -/
def Memory.wf (blank : Option Byte) (m : List Host.Cell) : Bool :=
  Memory.rising m && m.all (fun c => decide (blank ≠ some c.2))

/-- An unlisted byte of BUF holds no value (R40). -/
def bufBlank : Option Byte := none

/-- An unlisted byte of the reference device is erased memory, 0xFF (G5). PRESUMED (log entry 4), unsafe. -/
def devBlank : Byte := 0xFF

/-- `BufRead(i)` (R16): refused at or beyond BUF_SIZE (R263), a fault where the byte holds no value (R40). DEDUCED
(log entries 3 and 11), safe. -/
def State.bufRead (s : State) (i : Nat) : Host.Outcome Byte Fault Refusal :=
  if i < s.cfg.bufSize then
    match Memory.read bufBlank s.buf i with
    | some v => .next v
    | none => .fault (.bufHoldsNoValue i)
  else .refused (.bufIndexBeyondSize i)

/-- `BufWrite(i, v)` (R16): refused at or beyond BUF_SIZE (R263). -/
def State.bufWrite (s : State) (i : Nat) (v : Byte) : Host.Outcome State Fault Refusal :=
  if i < s.cfg.bufSize then .next { s with buf := Memory.write bufBlank s.buf i v }
  else .refused (.bufIndexBeyondSize i)

/-- `MemRead(a, 1)` of the reference device (R16). -/
def Env.memRead (e : Env) (a : Nat) : Byte := (Memory.read (some devBlank) e.mem a).getD devBlank

/-- `MemWrite(a, 1, v)` of the reference device (R16). -/
def Env.memWrite (e : Env) (a : Nat) (v : Byte) : Env :=
  { e with mem := Memory.write (some devBlank) e.mem a v }

/-! ### Page arithmetic -/

/-- `chunk_length(a, L, P) = min(L, P - (a mod P))` (R130). -/
def chunkLength (a L P : Nat) : Nat := min L (P - a % P)

/-- `chunk_length(ADDR, REM, PAGE_SIZE)` as CHUNK takes it (R182, R192). -/
def State.nextChunk (s : State) : Half :=
  BitVec.ofNat 16 (chunkLength s.addr.toNat s.rem.toNat s.cfg.pageSize)

/-! ### Operands of the requests -/

/-- `ADDR[15:8]` (R54, R87). -/
def State.addrHi (s : State) : Byte := s.addr.extractLsb' 8 8

/-- `ADDR[7:0]` (R54, R87). -/
def State.addrLo (s : State) : Byte := s.addr.extractLsb' 0 8

/-- The buffer index `CUR + IDX` of the current data byte (R55). -/
def State.bufIndex (s : State) : Nat := s.cur.toNat + s.idx.toNat

/-- Of a sample round of two queries, the one due: the first until it is answered, then the second (R120). -/
def State.due (s : State) (q1 q2 : Instr) : Instr := if s.first.isSome then q2 else q1

/-- Map a read operand into the request that carries it. -/
def withOperand {α β : Type} (f : α → β) : Host.Outcome α Fault Refusal → Host.Outcome β Fault Refusal
  | .next v => .next (f v)
  | .fault r => .fault r
  | .refused r => .refused r

/-- The primitive call the block makes next, none in `IDLE` (the table of R26, with the rules it names). In `U3_CHECK`
with NACKED = 1 "no query is made" (R143): the next call is the stop that `raise` leads to. -/
def State.nextCall (s : State) : Host.Outcome (Option Instr) Fault Refusal :=
  match s.phase with
  | .idle => .next none
  | .u1Start => .next (some .busStart)
  | .u1Wait => .next (some .qStSent)
  | .u2Addr => .next (some (.busSendAddress s.cfg.devAddr .write))
  | .u2Wait => .next (some (s.due .qAdDone .qAdNack))
  | .u3Check => .next (some (if s.nacked then .busStop else s.due .qCtBusy .qCtMaster))
  | .u4Hi => .next (some (.busSendByte s.addrHi))
  | .u4HiWait => .next (some .qTxEmpty)
  | .u4Lo => .next (some (.busSendByte s.addrLo))
  | .u4LoWait => .next (some .qTxEmpty)
  | .w5Data => withOperand (fun b => some (.busSendByte b)) (s.bufRead s.bufIndex)
  | .w5Wait => .next (some .qTxEmpty)
  | .r5Start => .next (some .busStart)
  | .r5Wait => .next (some .qStSent)
  | .r6Addr => .next (some (.busSendAddress s.cfg.devAddr .read))
  | .r6Wait => .next (some .qAdDone)
  | .r7Check => .next (some (s.due .qCtBusy .qCtMaster))
  | .r7AckOn => .next (some (.busSetAck true))
  | .r7AckOff => .next (some (.busSetAck false))
  | .r7Wait => .next (some .qRxFull)
  | .r7Recv => .next (some .busRecvByte)
  | .uStop => .next (some .busStop)
  | .uStopWait => .next (some (s.due .qCtBusy .qCtMaster))
  | .pStart => .next (some .busStart)
  | .pStartWait => .next (some .qStSent)
  | .pAddr => .next (some (.busSendAddress s.cfg.devAddr .read))
  | .pAddrWait => .next (some (s.due .qAdDone .qAdNack))
  | .pStop => .next (some .busStop)
  | .pStopWait => .next (some (s.due .qCtBusy .qCtMaster))
  | .pClear => .next (some .busClearNack)

/-- The block's next call is `i`. -/
def State.issues (s : State) (i : Instr) : Bool :=
  match s.nextCall with
  | .next (some j) => decide (j = i)
  | .next none | .fault _ | .refused _ => false

end Sys2Proof.Machine
end

