-- ==== Sys2Proof/Machine/Environment.lean ====
section
/-! DEFINITION. What the environment does at a primitive call and what it answers: the reference environment of R70 to
R77, rule by rule, and the oracle of R6, whose answers are free values. -/

namespace Sys2Proof.Machine

/-- A flag as RSP carries it, `{0000000, flag}` (R85). -/
def flagByte (f : Bool) : Byte := if f then 1 else 0

/-- The calls whose response the environment chooses: the seven queries and `bus_recv_byte` (U11). -/
def givesAnswer (i : Instr) : Bool := i.isQuery || decide (i = .busRecvByte)

/-- What the reference environment shows at a call: the flag of a query (R77), DR for a received byte (R74), 0 for every
other call (R86). -/
def Env.shown (e : Env) : Instr → Byte
  | .qStSent => flagByte e.stSent
  | .qAdDone => flagByte e.adDone
  | .qAdNack => flagByte e.adNack
  | .qTxEmpty => flagByte e.txEmpty
  | .qRxFull => flagByte e.rxFull
  | .qCtBusy => flagByte e.ctBusy
  | .qCtMaster => flagByte e.ctMaster
  | .busRecvByte => e.dr
  | .writeByte _ _ | .writeBlock _ _ | .readByte _ _ | .readBlock _ _
  | .busStart | .busStop | .busSendAddress _ _ | .busSendByte _ | .busSetAck _ | .busClearNack => 0

/-! ### The reference environment, one definition per action -/

/-- `(PTR + 1) mod CAPACITY` (R72, R74). -/
def Env.nextPtr (c : Config) (e : Env) : Half := BitVec.ofNat 16 ((e.ptr.toNat + 1) % c.capacity)

/-- `bus_start()` (R71). -/
def Env.start (e : Env) : Env :=
  { e with ctBusy := true, ctMaster := true, stSent := true, adDone := false, txEmpty := false, rxFull := false,
           mode := .idle, latch := [] }

/-- DR takes the byte at PTR, PTR moves on, RX_FULL is set (R72, R74). -/
def Env.loadByte (c : Config) (e : Env) : Env :=
  { e with dr := e.memRead (e.ptr.toNat % c.capacity), ptr := e.nextPtr c, rxFull := true }

/-- `bus_send_address(a7, intent)` (R72). -/
def Env.sendAddress (c : Config) (a7 : BitVec 7) (intent : Intent) (e : Env) : Env :=
  let e := { e with stSent := false }
  if e.present && a7 == c.devAddr then
    if e.wbusy = 0 then
      let e := { e with adDone := true }
      match intent with
      | .write => { e with mode := .wAddr0, txEmpty := true }
      | .read => Env.loadByte c { e with mode := .rData }
    else { e with adNack := true, wbusy := e.wbusy - 1 }
  else { e with adNack := true }

/-- The pointer after a data byte: it wraps inside its page (R73). DESIGN CHOICE (log entry 18): the device's page size is the
block's; unsafe for a device with another. -/
def Env.wrapPtr (c : Config) (e : Env) : Half :=
  BitVec.ofNat 16 (e.ptr.toNat / c.pageSize * c.pageSize + (e.ptr.toNat + 1) % c.pageSize)

/-- `bus_send_byte(b)` (R73). -/
def Env.sendByte (c : Config) (b : Byte) (e : Env) : Env :=
  match e.mode with
  | .wAddr0 => { e with ptr := b ++ (e.ptr.extractLsb' 0 8 : Byte), mode := .wAddr1, txEmpty := true }
  | .wAddr1 => { e with ptr := (e.ptr.extractLsb' 8 8 : Byte) ++ b, mode := .wData, txEmpty := true }
  | .wData => { e with latch := e.latch ++ [(e.ptr.toNat % c.capacity, b)], ptr := e.wrapPtr c, txEmpty := true }
  | .idle | .rData => e

/-- `bus_recv_byte()` (R74). -/
def Env.recvByte (c : Config) (e : Env) : Env :=
  let e := { e with rxFull := false }
  match e.mode with
  | .rData => if e.ackEn then e.loadByte c else { e with mode := .idle }
  | .idle | .wAddr0 | .wAddr1 | .wData => e

/-- `bus_set_ack(en)` (R75, R107). -/
def Env.setAck (en : Bool) (e : Env) : Env := { e with ackEn := en }

/-- `bus_clear_nack()` (R75, R108). -/
def Env.clearNack (e : Env) : Env := { e with adNack := false }

/-- The latched pairs written to the device in order (R76). -/
def Env.commit (e : Env) : List Host.Cell → Env
  | [] => e
  | (a, b) :: rest => (e.memWrite a b).commit rest

/-- `bus_stop()` (R76): the latched pairs are committed and the write cycle starts. -/
def Env.stop (e : Env) : Env :=
  let e := { e with ctBusy := false, ctMaster := false, stSent := false, adDone := false, txEmpty := false,
                    rxFull := false }
  let e := if e.mode = .wData ∧ e.latch ≠ [] then { e.commit e.latch with wbusy := e.wcNacks } else e
  { e with latch := [], mode := .idle }

/-- The reference environment's own move at a call (R71 to R77); a query "changes nothing" (R77). -/
def Env.act (c : Config) (i : Instr) (e : Env) : Env :=
  match i with
  | .busStart => e.start
  | .busStop => e.stop
  | .busSendAddress a7 intent => e.sendAddress c a7 intent
  | .busSendByte b => e.sendByte c b
  | .busRecvByte => e.recvByte c
  | .busSetAck en => e.setAck en
  | .busClearNack => e.clearNack
  | .qStSent | .qAdDone | .qAdNack | .qTxEmpty | .qRxFull | .qCtBusy | .qCtMaster => e
  | .writeByte _ _ | .writeBlock _ _ | .readByte _ _ | .readBlock _ _ => e

/-- What the oracle's environment may have become by a call: any flags, any bytes in the device, any pointer and write cycle
(R28, R47, R78, U13). ACK_EN is written by `bus_set_ack` alone (R29). DEDUCED (log entry 19), safe. -/
def Env.freed (f : FreeEnv) (e : Env) : Env :=
  { e with
    stSent := f.stSent, adDone := f.adDone, adNack := f.adNack, txEmpty := f.txEmpty, rxFull := f.rxFull,
    ctBusy := f.ctBusy, ctMaster := f.ctMaster,
    mem := Memory.canonical (some devBlank) f.writes, ptr := f.ptr, wbusy := f.wbusy }

/-- What is known of the oracle's environment after a call that was answered with `v`: a queried flag was what was answered
(R28), ACK_EN and AD_NACK take the effects the rules give (R107, R108), and nothing else is known (R100). -/
def Env.drawn (i : Instr) (v : Byte) (e : Env) : Env :=
  match i with
  | .qStSent => { e with stSent := v.getLsbD 0 }
  | .qAdDone => { e with adDone := v.getLsbD 0 }
  | .qAdNack => { e with adNack := v.getLsbD 0 }
  | .qTxEmpty => { e with txEmpty := v.getLsbD 0 }
  | .qRxFull => { e with rxFull := v.getLsbD 0 }
  | .qCtBusy => { e with ctBusy := v.getLsbD 0 }
  | .qCtMaster => { e with ctMaster := v.getLsbD 0 }
  | .busSetAck en => e.setAck en
  | .busClearNack => e.clearNack
  | .busStart | .busStop | .busSendAddress _ _ | .busSendByte _ | .busRecvByte => e
  | .writeByte _ _ | .writeBlock _ _ | .readByte _ _ | .readBlock _ _ => e

/-! ### The response -/

/-- What the environment would answer of its own: the oracle a free value (R6, U11), the reference environment what it
shows. -/
def State.ownAnswer (s : State) (i : Instr) : Byte :=
  match s.env.kind with
  | .oracle => Config.freeReply s.draws
  | .reference => s.env.shown i

/-- The answer of an answer-giving call: the forced value if this call has one (R77), else the environment's own. DEDUCED
(log entry 7), safe. -/
def State.answer (s : State) (i : Instr) : Byte :=
  match s.forced.head? with
  | some (some v) => v
  | some none | none => s.ownAnswer i

/-- RSP of a call (R85): the received byte, `{0000000, flag}` for a query, 0 otherwise. -/
def State.reply (s : State) (i : Instr) : Byte :=
  if i.isQuery then flagByte ((s.answer i).getLsbD 0)
  else if i = .busRecvByte then s.answer i
  else 0

/-- The environment after a call. -/
def State.envAfter (s : State) (i : Instr) : Env :=
  match s.env.kind with
  | .oracle => (s.env.freed (Config.freeEnv s.draws)).drawn i (s.reply i)
  | .reference => s.env.act s.cfg i

/-- The environment serves the call `i`: PW and RSP hold the request and the response (R85), the environment has moved. The
block's registers are as they were. -/
def State.serve (s : State) (i : Instr) : State :=
  { s with
    env := s.envAfter i
    pw := i.request
    rsp := s.reply i
    forced := if givesAnswer i then s.forced.tail else s.forced
    draws := s.draws + 1 }

end Sys2Proof.Machine
end

