-- ==== Sys2Proof/Machine/Ops.lean ====
section
/-! DEFINITION. The named operations of the micro-program: moves of PHASE, the bounded wait (R121), the entry of a failure
(R230, R231), completion (R38), the block loops (R181, R191), the poll loop (R200), acceptance (R36), reset (R250), and
the shape of a primitive call. -/

namespace Sys2Proof.Machine

/-- `PHASE <- p` (R16); no sample round is under way. -/
def State.goto (p : Phase) (s : State) : State := { s with phase := p, first := none }

/-- `PHASE <- p` into a wait phase: WCNT is "Set to 0 on entry to every wait phase" (R32, R121). -/
def State.enterWait (p : Phase) (s : State) : State := { s with phase := p, first := none, wcnt := 0 }

/-! ### A failure: its entry and its return -/

/-- `raise E` (R230, R231): the first failure of the command is recorded, and control goes to the stop step. -/
def State.raise (e : Result) (s : State) : State :=
  { s with result := firstFailure s.result e, phase := .uStop, first := none }

/-- Completion (R38, R234): BUSY <- 0, DONE <- 1, PHASE <- IDLE, with the result the loop returns. -/
def State.complete (r : Result) (s : State) : State :=
  { s with result := r, busy := false, done := true, phase := .idle, first := none }

/-! ### The wait -/

/-- The first query of a round of two is answered: its answer is kept for the second (R120). DEDUCED (log entry 8), safe. -/
def State.holdFirst (s : State) : State := { s with first := some s.flag }

/-- A sample round is counted (R121). -/
def State.countRound (s : State) : State := { s with wcnt := s.wcnt + 1, first := none }

/-- The end of a sample round of `await` (R121): `WCNT <- WCNT + 1`; satisfied, timed out at the bound, or another round. -/
def State.endRound (holds : Bool) (satisfied timedOut : State → State) (s : State) : State :=
  let s := s.countRound
  if holds then satisfied s
  else if reached s.cfg.waitLimit s.wcnt then timedOut s
  else s

/-! ### The block loops -/

/-- The advance after a successful unit (R136, R183, R193). DEDUCED (log entry 16), safe: the address wraps. -/
def State.advance (s : State) : State :=
  { s with addr := s.addr + s.chunk, cur := s.cur + s.chunk, rem := s.rem - s.chunk }

/-- The top of either block loop: with REM = 0 the command completes with OK, else CHUNK is set and a unit starts (R181,
R191). -/
def State.loopTop (s : State) : State :=
  if s.rem = 0 then s.complete .ok
  else { s with chunk := s.nextChunk, phase := .u1Start, first := none }

/-- The top of the poll loop: `Timeout` at the limit, else one more attempt (R200). -/
def State.pollTop (s : State) : State :=
  if reached s.cfg.pollLimit s.pcnt then s.complete .timeout
  else { s with pcnt := s.pcnt + 1, phase := .pStart, first := none }

/-- `poll()` is entered with PCNT = 0 (R200). -/
def State.pollStart (s : State) : State := State.pollTop { s with pcnt := 0 }

/-- A unit has returned RESULT to its block loop (R181, R184, R191, R194, R195). -/
def State.unitReturn (s : State) : State :=
  if s.result = .ok then (if s.isRead then s.advance.loopTop else s.pollStart)
  else s.complete s.result

/-- A time-out in a poll attempt's start or address wait: RESULT <- Timeout, and the attempt still issues its stop (R201,
R202, R205). -/
def State.pollLate (s : State) : State := { s with result := .timeout, phase := .pStop, first := none }

/-- The attempt's stop wait is satisfied: a timed-out attempt returns `Timeout` (R205), else the decision of R204. -/
def State.pollDecide (s : State) : State :=
  if s.result = .ok then (if s.nacked then s.goto .pClear else s.advance.loopTop)
  else s.complete .timeout

/-! ### Commands and reset -/

/-- Command acceptance, and what a write of CMD does while BUSY = 1, which is nothing (R36, R37). DEDUCED (log entry 12),
safe: U4 would refuse the latter. -/
def State.accept (op : BitVec 2) (addr len : Half) (s : State) : State :=
  if s.busy then s
  else State.loopTop { s with op := op, addr := addr, cur := 0, rem := len, result := .ok, busy := true, done := false }

/-- The reset input (R250, R251): the block is as after reset, with its parameters; the environment is left where it was;
no primitive is called. DESIGN CHOICE (log entries 1 and 23): the registers R250 calls unspecified hold 0; unsafe. -/
def State.applyReset (s : State) : State :=
  { State.resetWith s.cfg with env := s.env, forced := s.forced, draws := s.draws, host := s.host, rdata := s.rdata }

/-! ### A primitive call -/

/-- The primitive call `i` is made (R100). If it is the block's own next call, the environment serves it and the block
moves on by `block`. If no command is running, it is a call by someone else (P3; R260 forbids it only while BUSY = 1): the
environment serves it and the block stays. Otherwise the bus controller is in use (R101, U4). DEDUCED (log entry 13), safe. -/
def primitive (i : Instr) (block : State → Host.Outcome State Fault Refusal) (s : State) :
    Host.Outcome State Fault Refusal :=
  if s.issues i then block (s.serve i)
  else if s.busy then .refused .busInUse
  else .next (s.serve i)

end Sys2Proof.Machine
end

