-- ==== Sys2Proof/Machine/Action.lean ====
section
/-! DEFINITION. The seven action primitives (R102 to R108): what the call does to the environment and how the block's
micro-program goes on from each phase that issues it. -/

namespace Sys2Proof.Machine

/-- After `bus_start()` (R141, R162, R201). -/
def afterStart (s : State) : State :=
  match s.phase with
  | .u1Start => s.enterWait .u1Wait
  | .r5Start => s.enterWait .r5Wait
  | .pStart => s.enterWait .pStartWait
  | _ => s

/-- `bus_start` (R102). -/
def execBusStart (s : State) : Host.Outcome State Fault Refusal :=
  primitive .busStart (fun t => .next (afterStart t)) s

/-- After `bus_stop()` (R146, R168, R203); from `U3_CHECK` with NACKED = 1 the failure is raised first (R143). -/
def afterStop (s : State) : State :=
  match s.phase with
  | .uStop => s.enterWait .uStopWait
  | .u3Check => (s.raise .notAcknowledged).enterWait .uStopWait
  | .pStop => s.enterWait .pStopWait
  | _ => s

/-- `bus_stop` (R103). -/
def execBusStop (s : State) : Host.Outcome State Fault Refusal :=
  primitive .busStop (fun t => .next (afterStop t)) s

/-- After `bus_send_address(...)` (R142, R163, R202). -/
def afterSendAddress (s : State) : State :=
  match s.phase with
  | .u2Addr => s.enterWait .u2Wait
  | .r6Addr => s.enterWait .r6Wait
  | .pAddr => s.enterWait .pAddrWait
  | _ => s

/-- `bus_send_address` (R104). -/
def execBusSendAddress (addr7 : BitVec 7) (intent : Intent) (s : State) : Host.Outcome State Fault Refusal :=
  primitive (.busSendAddress addr7 intent) (fun t => .next (afterSendAddress t)) s

/-- After `bus_send_byte(b)` (R144, R145). -/
def afterSendByte (s : State) : State :=
  match s.phase with
  | .u4Hi => s.enterWait .u4HiWait
  | .u4Lo => s.enterWait .u4LoWait
  | .w5Data => s.enterWait .w5Wait
  | _ => s

/-- `bus_send_byte` (R105). -/
def execBusSendByte (b : Byte) (s : State) : Host.Outcome State Fault Refusal :=
  primitive (.busSendByte b) (fun t => .next (afterSendByte t)) s

/-- After a byte has been received and stored: `IDX <- IDX + 1` and the three ways on (R167). -/
def afterStored (s : State) : State :=
  let s := { s with idx := s.idx + 1 }
  if s.idx = s.chunk then s.goto .uStop
  else if s.idx = s.chunk - 1 then s.goto .r7AckOff
  else s.enterWait .r7Wait

/-- After `bus_recv_byte()`: `BufWrite(CUR + IDX, v)` with the received byte (R167). -/
def afterRecvByte (s : State) : Host.Outcome State Fault Refusal :=
  withOperand afterStored (s.bufWrite s.bufIndex s.rsp)

/-- `bus_recv_byte` (R106). -/
def execBusRecvByte (s : State) : Host.Outcome State Fault Refusal :=
  primitive .busRecvByte afterRecvByte s

/-- After `bus_set_ack(en)` (R165, R166). -/
def afterSetAck (s : State) : State :=
  match s.phase with
  | .r7AckOn => s.enterWait .r7Wait
  | .r7AckOff => s.enterWait .r7Wait
  | _ => s

/-- `bus_set_ack` (R107). -/
def execBusSetAck (enabled : Bool) (s : State) : Host.Outcome State Fault Refusal :=
  primitive (.busSetAck enabled) (fun t => .next (afterSetAck t)) s

/-- After `bus_clear_nack()`: back to the top of the poll loop (R204). -/
def afterClearNack (s : State) : State :=
  match s.phase with
  | .pClear => s.pollTop
  | _ => s

/-- `bus_clear_nack` (R108). -/
def execBusClearNack (s : State) : Host.Outcome State Fault Refusal :=
  primitive .busClearNack (fun t => .next (afterClearNack t)) s

end Sys2Proof.Machine
end

