-- ==== Sys2Proof/Machine/Command.lean ====
section
/-! DEFINITION. The four host commands (format CW): what a write of their word to CMD does (R36, R37, R84). -/

namespace Sys2Proof.Machine

/-- `write_byte` (R197): exactly `write_block` with length 1; the `len` field is ignored (R84). -/
def execWriteByte (addr _len : Half) (s : State) : Host.Outcome State Fault Refusal :=
  .next (s.accept 0b00 addr 1)

/-- `write_block` (R190, R191). -/
def execWriteBlock (addr len : Half) (s : State) : Host.Outcome State Fault Refusal :=
  .next (s.accept 0b01 addr len)

/-- `read_byte` (R187): exactly `read_block` with length 1; the `len` field is ignored (R84). -/
def execReadByte (addr _len : Half) (s : State) : Host.Outcome State Fault Refusal :=
  .next (s.accept 0b10 addr 1)

/-- `read_block` (R180, R181). -/
def execReadBlock (addr len : Half) (s : State) : Host.Outcome State Fault Refusal :=
  .next (s.accept 0b11 addr len)

end Sys2Proof.Machine
end

