-- ==== Sys2Proof/Machine/Query.lean ====
section
/-! DEFINITION. The seven status queries (R109 to R114): the environment answers one flag in `RSP[0]`, and the block's
micro-program goes on from each phase that asks it. -/

namespace Sys2Proof.Machine

/-- After `q_st_sent()`: the waits on `C_START` (R141, R162, R201). -/
def afterStSent (s : State) : State :=
  match s.phase with
  | .u1Wait => s.endRound s.flag (State.goto .u2Addr) (State.raise .timeout)
  | .r5Wait => s.endRound s.flag (State.goto .r6Addr) (State.raise .timeout)
  | .pStartWait => s.endRound s.flag (State.goto .pAddr) State.pollLate
  | _ => s

/-- `q_st_sent` (R109). -/
def execQStSent (s : State) : Host.Outcome State Fault Refusal :=
  primitive .qStSent (fun t => .next (afterStSent t)) s

/-- After `q_ad_done()`: the first query of `C_ADDR_ANY` (R142, R202), the only one of `C_ADDR_OK` (R163). -/
def afterAdDone (s : State) : State :=
  match s.phase with
  | .u2Wait => s.holdFirst
  | .pAddrWait => s.holdFirst
  | .r6Wait => s.endRound s.flag (State.goto .r7Check) (State.raise .timeout)
  | _ => s

/-- `q_ad_done` (R110). -/
def execQAdDone (s : State) : Host.Outcome State Fault Refusal :=
  primitive .qAdDone (fun t => .next (afterAdDone t)) s

/-- `NACKED <- r.samples.ad_nack` (R142, R202). -/
def State.takeNacked (s : State) : State := { s with nacked := s.flag }

/-- The address wait of a unit is satisfied: NACKED is set, and step 3 begins; not acknowledged is raised at once, no query
being made (R142, R143, R229). DEDUCED (log entry 22), safe: step 3 has then no step of its own. -/
def unitAddressed (s : State) : State :=
  if s.flag then (s.takeNacked).raise .notAcknowledged else s.takeNacked.goto .u3Check

/-- After `q_ad_nack()`: the second query of `C_ADDR_ANY` (R142, R202). -/
def afterAdNack (s : State) : State :=
  match s.phase with
  | .u2Wait => s.endRound (condAddrAny s.firstFlag s.flag) unitAddressed (State.raise .timeout)
  | .pAddrWait =>
    s.endRound (condAddrAny s.firstFlag s.flag) (fun t => t.takeNacked.goto .pStop) State.pollLate
  | _ => s

/-- `q_ad_nack` (R111). -/
def execQAdNack (s : State) : Host.Outcome State Fault Refusal :=
  primitive .qAdNack (fun t => .next (afterAdNack t)) s

/-- The second address byte is out: `IDX <- 0`, and the data phase of a write or the repeated start of a read (R144, R161). -/
def addressSent (s : State) : State :=
  State.goto (if s.isRead then .r5Start else .w5Data) { s with idx := 0 }

/-- A data byte is out: `IDX <- IDX + 1`, the next byte or the stop (R145). -/
def dataSent (s : State) : State :=
  let s := { s with idx := s.idx + 1 }
  if s.idx < s.chunk then s.goto .w5Data else s.goto .uStop

/-- After `q_tx_empty()`: the waits on `C_TX` (R144, R145). -/
def afterTxEmpty (s : State) : State :=
  match s.phase with
  | .u4HiWait => s.endRound s.flag (State.goto .u4Lo) (State.raise .timeout)
  | .u4LoWait => s.endRound s.flag addressSent (State.raise .timeout)
  | .w5Wait => s.endRound s.flag dataSent (State.raise .timeout)
  | _ => s

/-- `q_tx_empty` (R112). -/
def execQTxEmpty (s : State) : Host.Outcome State Fault Refusal :=
  primitive .qTxEmpty (fun t => .next (afterTxEmpty t)) s

/-- After `q_rx_full()`: the wait on `C_RX` (R167). -/
def afterRxFull (s : State) : State :=
  match s.phase with
  | .r7Wait => s.endRound s.flag (State.goto .r7Recv) (State.raise .timeout)
  | _ => s

/-- `q_rx_full` (R113). -/
def execQRxFull (s : State) : Host.Outcome State Fault Refusal :=
  primitive .qRxFull (fun t => .next (afterRxFull t)) s

/-- After `q_ct_busy()`: the first query of `ACTIVE_COND` and of `IDLE_COND` (R114, R120). -/
def afterCtBusy (s : State) : State :=
  match s.phase with
  | .u3Check => s.holdFirst
  | .r7Check => s.holdFirst
  | .uStopWait => s.holdFirst
  | .pStopWait => s.holdFirst
  | _ => s

/-- `q_ct_busy` (R114). -/
def execQCtBusy (s : State) : Host.Outcome State Fault Refusal :=
  primitive .qCtBusy (fun t => .next (afterCtBusy t)) s

/-- The data phase of a read begins: `IDX <- 0`, acknowledgement on for more than one byte (R164). -/
def startReading (s : State) : State :=
  State.goto (if 1 < s.chunk.toNat then .r7AckOn else .r7AckOff) { s with idx := 0 }

/-- The stop wait of a unit has timed out: reported only if nothing failed before (R146, R232). -/
def stopLate (s : State) : State := State.unitReturn { s with result := firstFailure s.result .timeout }

/-- After `q_ct_master()`: the second query of `ACTIVE_COND` (tested once, R122, R143, R164) and of `IDLE_COND` (R146, R203). -/
def afterCtMaster (s : State) : State :=
  match s.phase with
  | .u3Check => if condActive s.firstFlag s.flag then s.goto .u4Hi else s.raise .busFault
  | .r7Check => if condActive s.firstFlag s.flag then startReading s else s.raise .busFault
  | .uStopWait => s.endRound (condIdle s.firstFlag s.flag) State.unitReturn stopLate
  | .pStopWait => s.endRound (condIdle s.firstFlag s.flag) State.pollDecide (State.complete .timeout)
  | _ => s

/-- `q_ct_master` (R114). -/
def execQCtMaster (s : State) : Host.Outcome State Fault Refusal :=
  primitive .qCtMaster (fun t => .next (afterCtMaster t)) s

end Sys2Proof.Machine
end

