-- ==== Sys2Proof/Machine/Dispatch.lean ====
section
/-! DEFINITION. What each instruction does: one arm per constructor of Instr, one call of its meaning. -/

namespace Sys2Proof.Machine

def exec (i : Instr) (s : State) : Host.Outcome State Fault Refusal :=
  match i with
  | .writeByte addr len => Sys2Proof.Machine.execWriteByte addr len s
  | .writeBlock addr len => Sys2Proof.Machine.execWriteBlock addr len s
  | .readByte addr len => Sys2Proof.Machine.execReadByte addr len s
  | .readBlock addr len => Sys2Proof.Machine.execReadBlock addr len s
  | .busStart => Sys2Proof.Machine.execBusStart s
  | .busStop => Sys2Proof.Machine.execBusStop s
  | .busSendAddress addr7 intent => Sys2Proof.Machine.execBusSendAddress addr7 intent s
  | .busSendByte b => Sys2Proof.Machine.execBusSendByte b s
  | .busRecvByte => Sys2Proof.Machine.execBusRecvByte s
  | .busSetAck enabled => Sys2Proof.Machine.execBusSetAck enabled s
  | .busClearNack => Sys2Proof.Machine.execBusClearNack s
  | .qStSent => Sys2Proof.Machine.execQStSent s
  | .qAdDone => Sys2Proof.Machine.execQAdDone s
  | .qAdNack => Sys2Proof.Machine.execQAdNack s
  | .qTxEmpty => Sys2Proof.Machine.execQTxEmpty s
  | .qRxFull => Sys2Proof.Machine.execQRxFull s
  | .qCtBusy => Sys2Proof.Machine.execQCtBusy s
  | .qCtMaster => Sys2Proof.Machine.execQCtMaster s

end Sys2Proof.Machine
end

