-- ==== Sys2Proof/Machine/Turn.lean ====
section
/-! DEFINITION. Whose turn it is and what it does: the block makes its next primitive call, or the host its next move; and
how one instruction is placed so that the next step runs it. -/

namespace Sys2Proof.Machine

/-- A request word is decoded and its call made (R85, R86); a word that is none is refused. DEDUCED (log entry 15), safe. -/
def runRequest (w : ReqWord) (s : State) : Host.Outcome State Fault Refusal :=
  match decodePw w with
  | .ok i => exec i s
  | .error _ => .refused (.noSuchPrimitive w)

/-- The request word the block puts on its primitive interface, none in `IDLE` (R26, R85). -/
def State.nextRequest (s : State) : Host.Outcome (Option ReqWord) Fault Refusal :=
  withOperand (fun c => c.bind Instr.request) s.nextCall

/-- The block's turn: one primitive call (R17); in `IDLE` it does nothing (R252). -/
def blockTurn (s : State) : Host.Outcome State Fault Refusal :=
  match s.nextRequest with
  | .next (some w) => runRequest w s
  | .next none => .next s
  | .fault r => .fault r
  | .refused r => .refused r

/-- The host writes `BUF[i]`, only while BUSY = 0 (R46, R261). DEDUCED (log entry 14), safe. -/
def hostWriteBuf (i : Nat) (v : Byte) (s : State) : Host.Outcome State Fault Refusal :=
  if s.busy then .refused .bufLent else s.bufWrite i v

/-- The host reads `BUF[i]`, only while BUSY = 0 (R46, R261). DEDUCED (log entry 14), safe. -/
def hostReadBuf (i : Nat) (s : State) : Host.Outcome State Fault Refusal :=
  if s.busy then .refused .bufLent
  else withOperand (fun v => { s with rdata := v.setWidth 34 }) (s.bufRead i)

/-- The host reads STATUS: "Reading has no side effect" (R35). -/
def hostReadStatus (s : State) : State := { s with rdata := s.status.setWidth 34 }

/-- The host reads CMD: an unspecified value, free (R34, U16). -/
def hostReadCmd (s : State) : State := { s with rdata := Config.freeCmdRead s.draws, draws := s.draws + 1 }

/-- Someone outside the block makes a primitive call, only while BUSY = 0 (R260, U4; P3). -/
def outsideCall (w : ReqWord) (s : State) : Host.Outcome State Fault Refusal :=
  if s.busy then .refused .busInUse else runRequest w s

/-- One turn of the machine: the head of the host's moves, or the block's turn while that move waits or there is none.
DESIGN CHOICE (log entries 10 and 20): the order of moves and steps stands in the list. -/
def turn (s : State) : Host.Outcome State Fault Refusal :=
  match s.host with
  | [] => blockTurn s
  | .pause 0 :: rest => .next { s with host := rest }
  | .pause (n + 1) :: rest => blockTurn { s with host := .pause n :: rest }
  | .waitDone :: rest => if s.done then .next (hostReadStatus { s with host := rest }) else blockTurn s
  | .writeCmd w :: rest => exec (decodeCw w) { s with host := rest }
  | .readCmd :: rest => .next (hostReadCmd { s with host := rest })
  | .readStatus :: rest => .next (hostReadStatus { s with host := rest })
  | .writeStatus _ :: rest => .next { s with host := rest }
  | .writeBuf i v :: rest => hostWriteBuf i.toNat v { s with host := rest }
  | .readBuf i :: rest => hostReadBuf i.toNat { s with host := rest }
  | .call w :: rest => outsideCall w { s with host := rest }
  | .setPresent b :: rest => .next { s with host := rest, env := { s.env with present := b } }
  | .reset :: rest => .next (State.applyReset { s with host := rest })

/-! ### Placing one instruction -/

/-- The block is in the middle of a command, about to take the step of phase `p`. -/
def State.inPhase (p : Phase) (first : Option Bool) (s : State) : State :=
  { s with phase := p, first := first, busy := true, done := false, host := [] }

/-- `s` with the instruction `i` placed where the next step takes it from: a command as the host's next move, a primitive
as the request of a phase that issues it, with the operand it carries (R26). DESIGN CHOICE (log entry 21), safe. -/
def State.place (i : Instr) (s : State) : State :=
  match i, encode i with
  | .busSendAddress a7 .write, _ => State.inPhase .u2Addr none { s with cfg := { s.cfg with devAddr := a7 } }
  | .busSendAddress a7 .read, _ => State.inPhase .r6Addr none { s with cfg := { s.cfg with devAddr := a7 } }
  | .busSendByte b, _ => State.inPhase .u4Hi none { s with addr := b ++ s.addrLo }
  | .busStart, _ => s.inPhase .u1Start none
  | .busStop, _ => s.inPhase .uStop none
  | .busRecvByte, _ => State.inPhase .r7Recv none { s with cur := 0, idx := 0 }
  | .busSetAck true, _ => s.inPhase .r7AckOn none
  | .busSetAck false, _ => s.inPhase .r7AckOff none
  | .busClearNack, _ => s.inPhase .pClear none
  | .qStSent, _ => s.inPhase .u1Wait none
  | .qAdDone, _ => s.inPhase .u2Wait none
  | .qAdNack, _ => s.inPhase .u2Wait (some false)
  | .qTxEmpty, _ => s.inPhase .u4HiWait none
  | .qRxFull, _ => s.inPhase .r7Wait none
  | .qCtBusy, _ => s.inPhase .uStopWait none
  | .qCtMaster, _ => s.inPhase .uStopWait (some false)
  | _, .cw w => { s with host := .writeCmd w :: s.host }
  | _, .pw w => { s with host := .call w :: s.host }

/-- `s` with the table's word placed where the next step takes its instruction from. A 12-bit word that is no
instruction goes to the primitive interface as an outside call, which refuses it by name; a wider one is no word. -/
def State.placeWord (s : State) (nbits w : Nat) : State :=
  match decodeTableWord nbits w with
  | some i => s.place i
  | none => if w < 2 ^ 12 then { s with host := .call (BitVec.ofNat 12 w) :: s.host } else s

end Sys2Proof.Machine
end

