-- ==== Sys2Proof/Machine/Step.lean ====
section
/-! DEFINITION. One step of the machine, and the placing of one instruction for it. -/

namespace Sys2Proof.Machine

/-- One step: one move of the host or one primitive call of the block (R6, R17). -/
def step (s : State) : Host.Outcome State Fault Refusal := turn s

/-- `s` with the instruction of the table word stored where `step` takes its next instruction from. -/
def State.withFetchWord (s : State) (nbits w : Nat) : State := s.placeWord nbits w

end Sys2Proof.Machine
end

