-- ==== Sys2Proof/WellFormed.lean ====
section
/-! DEFINITION. What a configuration and an instruction must satisfy to be within the contract. The types already
carry the widths; the checks here are the ranges and duties the rules add. The block checks none of them. -/

namespace Sys2Proof

/-- The legal parameter ranges the types do not carry: `1 <= CAPACITY <= 65536` (R10), `1 <= BUF_SIZE <= 65536` (R14). -/
def Config.legal (c : Config) : Bool :=
  (1 ≤ c.capacity && c.capacity ≤ 65536) && (1 ≤ c.bufSize && c.bufSize ≤ 65536)

/-- The length a command asks for: 1 for the byte commands, the `len` field for the block commands (R84). -/
def Instr.length : Instr → Nat
  | .writeByte _ _ | .readByte _ _ => 1
  | .writeBlock _ len | .readBlock _ len => len.toNat
  | .busStart | .busStop | .busSendAddress _ _ | .busSendByte _ | .busRecvByte | .busSetAck _ | .busClearNack
  | .qStSent | .qAdDone | .qAdNack | .qTxEmpty | .qRxFull | .qCtBusy | .qCtMaster => 0

/-- The caller's duties for a command, `addr + len <= CAPACITY` (R262) and `len <= BUF_SIZE` (R263), and the block's own
for a request: the address it sends is "always `DEV_ADDR`" (R104). -/
def Instr.wellFormed (c : Config) (i : Instr) : Bool :=
  match i with
  | .writeByte addr _ | .writeBlock addr _ | .readByte addr _ | .readBlock addr _ =>
    addr.toNat + i.length ≤ c.capacity && i.length ≤ c.bufSize
  | .busSendAddress addr7 _ => addr7 == c.devAddr
  | .busStart | .busStop | .busSendByte _ | .busRecvByte | .busSetAck _ | .busClearNack
  | .qStSent | .qAdDone | .qAdNack | .qTxEmpty | .qRxFull | .qCtBusy | .qCtMaster => true

end Sys2Proof
end

