-- ==== Sys2Proof/Safety.lean ====
section
/-! DEFINITION. What a safe run is, in the terms the claims use: the classes of phases, the canonical memories, the control
invariant of the micro-program, the order of its phases, and the caller's contract. -/

namespace Sys2Proof.Machine

/-! ### Classes of phases (R26) -/

/-- The phases that `await` a condition (R121). -/
def Phase.isWait : Phase → Bool
  | .u1Wait | .u2Wait | .u4HiWait | .u4LoWait | .w5Wait | .r5Wait | .r6Wait | .r7Wait | .uStopWait
  | .pStartWait | .pAddrWait | .pStopWait => true
  | .idle | .u1Start | .u2Addr | .u3Check | .u4Hi | .u4Lo | .w5Data | .r5Start | .r6Addr | .r7Check | .r7AckOn | .r7AckOff
  | .r7Recv | .uStop | .pStart | .pAddr | .pStop | .pClear => false

/-- The phases whose sample round is two queries (R120). -/
def Phase.twoQueries : Phase → Bool
  | .u2Wait | .u3Check | .r7Check | .uStopWait | .pAddrWait | .pStopWait => true
  | .idle | .u1Start | .u1Wait | .u2Addr | .u4Hi | .u4HiWait | .u4Lo | .u4LoWait | .w5Data | .w5Wait | .r5Start | .r5Wait
  | .r6Addr | .r6Wait | .r7AckOn | .r7AckOff | .r7Wait | .r7Recv | .uStop | .pStart | .pStartWait | .pAddr | .pStop
  | .pClear => false

/-- The phases only a read command comes to: steps 5 to 7 of `read_unit` (R162 to R167). -/
def Phase.onlyRead : Phase → Bool
  | .r5Start | .r5Wait | .r6Addr | .r6Wait | .r7Check | .r7AckOn | .r7AckOff | .r7Wait | .r7Recv => true
  | .idle | .u1Start | .u1Wait | .u2Addr | .u2Wait | .u3Check | .u4Hi | .u4HiWait | .u4Lo | .u4LoWait | .w5Data | .w5Wait
  | .uStop | .uStopWait | .pStart | .pStartWait | .pAddr | .pAddrWait | .pStop | .pStopWait | .pClear => false

/-- The phases of the poll (R200 to R205). -/
def Phase.inPoll : Phase → Bool
  | .pStart | .pStartWait | .pAddr | .pAddrWait | .pStop | .pStopWait | .pClear => true
  | .idle | .u1Start | .u1Wait | .u2Addr | .u2Wait | .u3Check | .u4Hi | .u4HiWait | .u4Lo | .u4LoWait | .w5Data | .w5Wait
  | .r5Start | .r5Wait | .r6Addr | .r6Wait | .r7Check | .r7AckOn | .r7AckOff | .r7Wait | .r7Recv | .uStop
  | .uStopWait => false

/-- The phases only a write command comes to: step 5 of `write_unit` (R145) and the poll (R186: no read command polls). -/
def Phase.onlyWrite (p : Phase) : Bool := p = .w5Data || p = .w5Wait || p.inPoll

/-- The phases with a data byte still to move, number IDX of the unit. -/
def Phase.inData : Phase → Bool
  | .w5Data | .w5Wait | .r7AckOn | .r7AckOff | .r7Wait | .r7Recv => true
  | .idle | .u1Start | .u1Wait | .u2Addr | .u2Wait | .u3Check | .u4Hi | .u4HiWait | .u4Lo | .u4LoWait
  | .r5Start | .r5Wait | .r6Addr | .r6Wait | .r7Check | .uStop | .uStopWait
  | .pStart | .pStartWait | .pAddr | .pAddrWait | .pStop | .pStopWait | .pClear => false

/-- The phases after a failure may have been recorded: the stop steps of a unit and of a poll attempt. -/
def Phase.isStop (p : Phase) : Bool := p = .uStop || p = .uStopWait || p = .pStop || p = .pStopWait

/-- The phases the micro-program may go to from each phase (R27; the step rules R141 to R146, R161 to R168, R181, R191, R200
to R205). -/
def Phase.successors : Phase → List Phase
  | .idle => [.u1Start]
  | .u1Start => [.u1Wait]
  | .u1Wait => [.u2Addr, .uStop]
  | .u2Addr => [.u2Wait]
  | .u2Wait => [.u3Check, .uStop]
  | .u3Check => [.u4Hi, .uStop]
  | .u4Hi => [.u4HiWait]
  | .u4HiWait => [.u4Lo, .uStop]
  | .u4Lo => [.u4LoWait]
  | .u4LoWait => [.w5Data, .r5Start, .uStop]
  | .w5Data => [.w5Wait]
  | .w5Wait => [.w5Data, .uStop]
  | .r5Start => [.r5Wait]
  | .r5Wait => [.r6Addr, .uStop]
  | .r6Addr => [.r6Wait]
  | .r6Wait => [.r7Check, .uStop]
  | .r7Check => [.r7AckOn, .r7AckOff, .uStop]
  | .r7AckOn => [.r7Wait]
  | .r7AckOff => [.r7Wait]
  | .r7Wait => [.r7Recv, .uStop]
  | .r7Recv => [.r7Wait, .r7AckOff, .uStop]
  | .uStop => [.uStopWait]
  | .uStopWait => [.u1Start, .pStart, .idle]
  | .pStart => [.pStartWait]
  | .pStartWait => [.pAddr, .pStop]
  | .pAddr => [.pAddrWait]
  | .pAddrWait => [.pStop]
  | .pStop => [.pStopWait]
  | .pStopWait => [.u1Start, .pClear, .idle]
  | .pClear => [.pStart, .idle]

/-! ### Invariants -/

/-- The guard of one more sample round: not `WAIT_LIMIT != none and WCNT = WAIT_LIMIT`, for a count that has not run past
the limit (R32, R121). -/
def State.roundDue (s : State) : Prop := ∀ n, s.cfg.waitLimit.value = some n → s.wcnt < n

/-- The flag the environment answers to the query `i`, `RSP[0]` (R85): any value (U11). -/
def State.hears (s : State) (i : Instr) : Bool := (s.reply i).getLsbD 0

/-- Both memories are in canonical form, and BUF lists no byte at or beyond BUF_SIZE (R39). -/
structure State.MemoryOk (s : State) : Prop where
  buf : Memory.wf bufBlank s.buf = true
  inside : ∀ c ∈ s.buf, c.1 < s.cfg.bufSize
  dev : Memory.wf (some devBlank) s.env.mem = true

/-- The control invariant: what the rules make true of the registers in each phase. -/
structure State.Control (s : State) : Prop where
  /-- BUSY from acceptance until completion, which sets PHASE to IDLE (R36, R38) -/
  busyIff : s.busy = true ↔ s.phase ≠ .idle
  /-- BUSY and DONE exclude each other (R35, R36, R38) -/
  notBoth : s.busy = true → s.done = false
  /-- a unit or its poll runs only with bytes left (R181, R191) -/
  bytesLeft : s.busy = true → s.rem ≠ 0
  /-- CHUNK is the chunk of ADDR and REM (R182, R192) -/
  chunkIs : s.busy = true → s.chunk = s.nextChunk
  /-- the cursor and what is left make a command's length, at most 65535 (R13, R136) -/
  cursor : s.busy = true → s.cur.toNat + s.rem.toNat ≤ 65535
  /-- steps 5 to 7 of a read unit are a read command's (R161) -/
  readPhase : s.phase.onlyRead = true → s.isRead = true
  /-- the data phase of a write unit and the poll are a write command's (R144, R186) -/
  writePhase : s.phase.onlyWrite = true → s.isRead = false
  /-- the data byte IDX is one of the unit's (R24) -/
  index : s.phase.inData = true → s.idx < s.chunk
  /-- acknowledgement is switched on before the first byte of more than one (R165) -/
  ackOnAt : s.phase = .r7AckOn → s.idx = 0 ∧ s.idx.toNat + 1 < s.chunk.toNat
  /-- and off before the last (R166) -/
  ackOffAt : s.phase = .r7AckOff → s.idx.toNat + 1 = s.chunk.toNat
  /-- while a byte that is not the last is awaited or taken, acknowledgement is enabled (R165) -/
  ackOn : s.phase = .r7Wait ∨ s.phase = .r7Recv → s.idx.toNat + 1 < s.chunk.toNat → s.env.ackEn = true
  /-- for the last byte it is disabled (R166) -/
  ackOff : s.phase = .r7Wait ∨ s.phase = .r7Recv → s.idx.toNat + 1 = s.chunk.toNat → s.env.ackEn = false
  /-- a failure leads to the stop step at once (R231) -/
  okSoFar : s.busy = true → s.phase.isStop = false → s.result = .ok
  /-- a poll records no failure but `Timeout` (R200) -/
  pollResult : s.phase.inPoll = true → s.result = .ok ∨ s.result = .timeout
  /-- the state test is made only after an acknowledged address (R143) -/
  acked : s.phase = .u3Check → s.nacked = false
  /-- the flag is cleared only after a refused attempt (R204) -/
  refusedAttempt : s.phase = .pClear → s.nacked = true
  /-- a first sample is held only in the middle of a round of two queries (R120) -/
  sample : s.first.isSome = true → s.phase.twoQueries = true
  /-- a wait that goes on has rounds left (R121) -/
  waiting : s.phase.isWait = true → s.roundDue
  /-- 0 <= WCNT <= WAIT_LIMIT (R32) -/
  waitCount : ∀ n, s.cfg.waitLimit.value = some n → s.wcnt ≤ n
  /-- 0 <= PCNT <= POLL_LIMIT (R33) -/
  pollCount : ∀ n, s.cfg.pollLimit.value = some n → s.pcnt ≤ n

/-- The caller has kept the contract for what is left of the running command: the buffer reaches that far (R263) and, for a
write, every byte left to send has a value (R255). -/
structure State.Contract (s : State) : Prop where
  fits : s.busy = true → s.cur.toNat + s.rem.toNat ≤ s.cfg.bufSize
  filled : s.busy = true → s.isRead = false →
    ∀ i, s.cur.toNat ≤ i → i < s.cur.toNat + s.rem.toNat → Memory.read bufBlank s.buf i ≠ none

end Sys2Proof.Machine
end

