-- ==== Sys2Proof/Certificates/Slice0/Obligations.lean ====
section
/-! DEFINITION. The statements for the provers, rule by rule of the spec. Each docstring cites what it formalises. -/

namespace Sys2Proof.Claims

open Sys2Proof.Machine

/-- What a wait does with the round that the query `i` has just ended (R121): WCNT has one more; satisfied, or timed out when
that was round number WAIT_LIMIT, or another round. -/
def roundEnds (s : State) (i : Instr) (holds : Bool) (satisfied timedOut : State → State) : State :=
  let t : State := { s.serve i with first := none, wcnt := s.wcnt + 1 }
  if holds then satisfied t
  else if s.cfg.waitLimit.value = some (s.wcnt + 1) then timedOut t
  else t

/-- `raise E` (R230, R231): the first failure is recorded, and control goes to the stop step. -/
def fails (e : Result) (t : State) : State :=
  { t with result := if t.result = .ok then e else t.result, phase := .uStop, first := none }

/-- Completion with a result (R38, R234). -/
def completes (r : Result) (t : State) : State :=
  { t with result := r, busy := false, done := true, phase := .idle, first := none }

/-- The advance, then the next unit or, with nothing left, completion with `OK` (R136, R181, R182, R183). -/
def movesOn (t : State) : State :=
  let u : State := { t with addr := t.addr + t.chunk, cur := t.cur + t.chunk, rem := t.rem - t.chunk }
  if u.rem = 0 then completes .ok u
  else { u with chunk := BitVec.ofNat 16 (chunkLength u.addr.toNat u.rem.toNat u.cfg.pageSize), phase := .u1Start,
                first := none }

/-- The block's registers (R46), all of them. -/
def SameBlock (s t : State) : Prop :=
  t.phase = s.phase ∧ t.op = s.op ∧ t.addr = s.addr ∧ t.cur = s.cur ∧ t.rem = s.rem ∧ t.chunk = s.chunk ∧ t.idx = s.idx ∧
  t.nacked = s.nacked ∧ t.result = s.result ∧ t.busy = s.busy ∧ t.done = s.done ∧ t.wcnt = s.wcnt ∧ t.pcnt = s.pcnt ∧
  t.buf = s.buf ∧ t.first = s.first

/-- Every index of BUF reads as before. -/
def SameBuf (s t : State) : Prop := ∀ a, Memory.read bufBlank t.buf a = Memory.read bufBlank s.buf a

/-- In the reference environment, every address of the device's memory reads as before. With the oracle a call leaves the
device's memory free, which is the model's deduction (log entry 19), so nothing is said of it. -/
def SameDevice (s t : State) : Prop := s.env.kind = .reference → ∀ a, t.env.memRead a = s.env.memRead a

/-- What no primitive call changes: the parameters, the command's operands and its buffer cursor's command (OP), the
host's moves and what its last read returned. -/
def SameFrame (s t : State) : Prop :=
  t.cfg = s.cfg ∧ t.op = s.op ∧ t.host = s.host ∧ t.rdata = s.rdata

/-- The unit's operands (R140, R160). -/
def SameOperands (s t : State) : Prop :=
  t.addr = s.addr ∧ t.cur = s.cur ∧ t.rem = s.rem ∧ t.chunk = s.chunk

/-- BUSY and DONE (R35). -/
def SameStatusBits (s t : State) : Prop := t.busy = s.busy ∧ t.done = s.done

/-- The byte a list of latched pairs leaves at an address: the last pair of that address counts (R76). -/
def lastLatched (l : List Host.Cell) (a : Nat) (old : Byte) : Byte :=
  match l.reverse.find? (fun c => c.1 == a) with
  | some c => c.2
  | none => old

/-- A step's outcome with its next state mapped. -/
def mapNext (f : State → State) : Host.Outcome State Fault Refusal → Host.Outcome State Fault Refusal
  | .next t => .next (f t)
  | .fault r => .fault r
  | .refused r => .refused r

/-- The state with another device capacity. -/
def withCapacity (c : Nat) (s : State) : State := { s with cfg := { s.cfg with capacity := c } }

end Sys2Proof.Claims

open Sys2Proof Sys2Proof.Machine Sys2Proof.Claims

/-! ### Encoding -/

/-- R81, R82, R85, R86, R87: decoding an encoded instruction gives it back, every operand at every value. -/
def Obligations.DecodeOfEncode : Prop :=
  ∀ i : Instr, decode (encode i) = .ok i

/-- R81, R82, R85, R86, R87: a word the decoder accepts is the word the encoder writes; no bit of it is dropped. -/
def Obligations.EncodeOfDecode : Prop :=
  ∀ (w : CodeWord) (i : Instr), decode w = .ok i → encode i = w

/-- R93, in what the spec derives from R100 to R114: codes 0x7 and 0xF are never issued, nor an argument bit where R86
fixes it at 0. -/
def Obligations.BlockIssuesNoReservedWord : Prop :=
  ∀ (s : State) (w : ReqWord), s.nextRequest = .next (some w) →
    w.extractLsb' 8 4 ≠ (0x7 : BitVec 4) ∧ w.extractLsb' 8 4 ≠ (0xF : BitVec 4) ∧
    (w.extractLsb' 8 4 ∉ ([0x2, 0x3, 0x5] : List (BitVec 4)) → w.extractLsb' 0 8 = (0 : Byte)) ∧
    (w.extractLsb' 8 4 = (0x5 : BitVec 4) → w.extractLsb' 1 7 = (0 : BitVec 7))

/-- R82, R86, R87, R104: words written out in the spec decode to what they stand for (V2 of 95_test_vectors.md). The
whole-byte containers are the model's choice (log entry 9). -/
def Obligations.SpecWordsDecode : Prop :=
  decodeTableWord 40 0x0_0010_FFFF = some (.writeByte 0x0010 0xFFFF) ∧
  decodeTableWord 40 0x1_00FA_000A = some (.writeBlock 250 10) ∧
  decodeTableWord 40 0x2_0010_0000 = some (.readByte 0x0010 0) ∧
  decodeTableWord 40 0x3_00FA_000A = some (.readBlock 250 10) ∧
  decodeTableWord 16 0x2A1 = some (.busSendAddress 0x50 .read) ∧
  decodeTableWord 16 0x3FA = some (.busSendByte 0xFA) ∧
  decodeTableWord 16 0xE00 = some .qCtMaster

/-! ### A step runs the decoded instruction -/

/-- R34, R36: a word the host writes to CMD is decoded and executed in that step; the move is taken off the host's list. That
host moves stand in a list is the model's choice (log entry 10). -/
def Obligations.StepRunsHostCommand : Prop :=
  ∀ (s : State) (w : CmdWord) (rest : List HostMove), s.host = .writeCmd w :: rest →
    step s = exec (decodeCw w) { s with host := rest }

/-- R17, R26: on the block's turn (no host move pending, or the host waiting for DONE, or letting the block take steps) a
step is the execution of the primitive whose request word the phase issues. That host moves stand in a list is the model's
choice (log entry 10). -/
def Obligations.StepRunsBlockRequest : Prop :=
  ∀ (s : State) (w : ReqWord) (i : Instr), s.nextRequest = .next (some w) → decodePw w = .ok i →
    (s.host = [] → step s = exec i s) ∧
    (∀ rest, s.host = .waitDone :: rest → s.done = false → step s = exec i s) ∧
    (∀ n rest, s.host = .pause (n + 1) :: rest → step s = exec i { s with host := .pause n :: rest })

/-- R40, U5, R263, U14: the step that would send a buffer byte without a value is a fault, one that would send or receive
a byte beyond BUF_SIZE a refusal. Fault and refusal, and that they come at the access, are the model's (log entries 3 and
11). -/
def Obligations.StepStopsAtMissingBufferByte : Prop :=
  ∀ s : State, s.host = [] →
    (s.phase = .w5Data → s.cur.toNat + s.idx.toNat < s.cfg.bufSize →
      Memory.read bufBlank s.buf (s.cur.toNat + s.idx.toNat) = none →
      step s = .fault (.bufHoldsNoValue (s.cur.toNat + s.idx.toNat))) ∧
    (s.phase = .w5Data ∨ s.phase = .r7Recv → s.cfg.bufSize ≤ s.cur.toNat + s.idx.toNat →
      step s = .refused (.bufIndexBeyondSize (s.cur.toNat + s.idx.toNat)))

/-- R252: in `IDLE` without a host move the block does nothing. That this is a step of its own is the model's choice (log
entry 10). -/
def Obligations.IdleBlockDoesNothing : Prop :=
  ∀ s : State, s.host = [] → s.phase = .idle → step s = .next s

/-! ### Reset and the host's registers -/

/-- R250, R251: the reset input, from every state: PHASE, BUSY, DONE, RESULT, STATUS and BUF as the rule says; no
primitive is called and the environment is left where it was. That reset is one host move and keeps the environment is the
model's choice (log entries 10 and 23). -/
def Obligations.ResetInputEffect : Prop :=
  ∀ (s : State) (rest : List HostMove), s.host = .reset :: rest →
    ∃ t, step s = .next t ∧ t.phase = .idle ∧ t.busy = false ∧ t.done = false ∧ t.result = .ok ∧ t.status = 0b0000 ∧
      (∀ a, Memory.read bufBlank t.buf a = none) ∧ t.env = s.env ∧ t.pw = none ∧ t.cfg = s.cfg ∧ t.host = rest

/-- R35: the bits of STATUS, for every state, and a read of it: no side effect; a write is ignored. The host's list of moves
is the model's choice (log entry 10). -/
def Obligations.StatusRegister : Prop :=
  ∀ s : State,
    s.status.getLsbD 0 = s.busy ∧ s.status.getLsbD 1 = s.done ∧
    s.status.extractLsb' 2 2 = (match s.result with
      | .ok => (0 : BitVec 2) | .notAcknowledged => 1 | .busFault => 2 | .timeout => 3) ∧
    (∀ rest, s.host = .readStatus :: rest →
      step s = .next { s with host := rest, rdata := s.status.setWidth 34 }) ∧
    (∀ v rest, s.host = .writeStatus v :: rest → step s = .next { s with host := rest })

/-- R261, U8: while BUSY = 1 the host neither reads nor writes BUF; R69: what the host writes while BUSY = 0 is what a later
read of that byte returns. The refusal, and the host's list of moves, are the model's (log entries 10 and 14). -/
def Obligations.HostBufferAccess : Prop :=
  ∀ (s : State) (i : Half) (v : Byte) (rest : List HostMove),
    (s.busy = true → s.host = .writeBuf i v :: rest → step s = .refused .bufLent) ∧
    (s.busy = true → s.host = .readBuf i :: rest → step s = .refused .bufLent) ∧
    (s.MemoryOk → s.busy = false → i.toNat < s.cfg.bufSize → s.host = .writeBuf i v :: .readBuf i :: rest →
      ∃ t u, step s = .next t ∧ step t = .next u ∧ u.rdata = v.setWidth 34 ∧
        (∀ a, a ≠ i.toNat → Memory.read bufBlank u.buf a = Memory.read bufBlank s.buf a))

/-! ### The commands -/

/-- R36, R83, R182, R192: a block command of at least one byte is accepted while BUSY = 0, and the block loop starts its
first unit. -/
def Obligations.BlockCommandAccepted : Prop :=
  ∀ (s : State) (addr len : Half), s.busy = false → len ≠ 0 →
    exec (.writeBlock addr len) s = .next
      { s with op := 0b01, addr := addr, cur := 0, rem := len, result := .ok, busy := true, done := false,
               chunk := BitVec.ofNat 16 (chunkLength addr.toNat len.toNat s.cfg.pageSize), phase := .u1Start,
               first := none } ∧
    exec (.readBlock addr len) s = .next
      { s with op := 0b11, addr := addr, cur := 0, rem := len, result := .ok, busy := true, done := false,
               chunk := BitVec.ofNat 16 (chunkLength addr.toNat len.toNat s.cfg.pageSize), phase := .u1Start,
               first := none }

/-- R84, R187, R197: a byte command is accepted with REM = 1 whatever its `len` field, and its one unit has one byte. -/
def Obligations.ByteCommandAccepted : Prop :=
  ∀ (s : State) (addr len : Half), s.busy = false →
    exec (.writeByte addr len) s = .next
      { s with op := 0b00, addr := addr, cur := 0, rem := 1, result := .ok, busy := true, done := false, chunk := 1,
               phase := .u1Start, first := none } ∧
    exec (.readByte addr len) s = .next
      { s with op := 0b10, addr := addr, cur := 0, rem := 1, result := .ok, busy := true, done := false, chunk := 1,
               phase := .u1Start, first := none }

/-- R185, R198: a block command of length 0 completes at acceptance with `OK`, no primitive call, BUF untouched: what the spec
derives from R181 and R191 and decides in D33. -/
def Obligations.ZeroLengthCompletesAtAcceptance : Prop :=
  ∀ (s : State) (addr : Half), s.busy = false →
    ∃ t u, exec (.readBlock addr 0) s = .next t ∧ exec (.writeBlock addr 0) s = .next u ∧
      t.status = 0b0010 ∧ t.phase = .idle ∧ t.buf = s.buf ∧ t.env = s.env ∧ t.pw = s.pw ∧
      u.status = 0b0010 ∧ u.phase = .idle ∧ u.buf = s.buf ∧ u.env = s.env ∧ u.pw = s.pw

/-- R37, R269: a write of CMD while BUSY = 1 changes nothing. -/
def Obligations.CommandWhileBusyIgnored : Prop :=
  ∀ (s : State) (i : Instr), i.isCommand = true → s.busy = true → exec i s = .next s

/-- Frame of the four commands (R36): IDX, NACKED, WCNT, PCNT, BUF, the environment, PW and RSP and the host's moves are as
they were (no primitive is called); every byte of BUF reads as before. -/
def Obligations.CommandFrame : Prop :=
  ∀ (s t : State) (i : Instr), i.isCommand = true → exec i s = .next t →
    t.cfg = s.cfg ∧ t.idx = s.idx ∧ t.nacked = s.nacked ∧ t.wcnt = s.wcnt ∧ t.pcnt = s.pcnt ∧ t.pw = s.pw ∧ t.rsp = s.rsp ∧
    t.env = s.env ∧ t.forced = s.forced ∧ t.draws = s.draws ∧ t.host = s.host ∧ t.rdata = s.rdata ∧
    SameBuf s t ∧ SameDevice s t

/-! ### The write unit -/

/-- R141: step 1. -/
def Obligations.UnitStepOne : Prop :=
  ∀ s : State,
    (s.phase = .u1Start →
      exec .busStart s = .next { s.serve .busStart with phase := .u1Wait, first := none, wcnt := 0 }) ∧
    (s.phase = .u1Wait → s.roundDue →
      exec .qStSent s = .next (roundEnds s .qStSent (s.hears .qStSent)
        (fun t => { t with phase := .u2Addr }) (fails .timeout)))

/-- R142, R143, R229: steps 2 and 3. NACKED is the `AD_NACK` sample of the round that ended the wait; with NACKED = 1
`NotAcknowledged` is raised and no query made, with NACKED = 0 one sample round of ACTIVE_COND decides. That a round of
two queries is two steps, and the refused step 3 none of its own, is the model's deduction (log entries 8 and 22). -/
def Obligations.UnitStepsTwoAndThree : Prop :=
  ∀ s : State,
    (s.phase = .u2Addr → exec (.busSendAddress s.cfg.devAddr .write) s =
      .next { s.serve (.busSendAddress s.cfg.devAddr .write) with phase := .u2Wait, first := none, wcnt := 0 }) ∧
    (s.phase = .u2Wait → s.first = none →
      exec .qAdDone s = .next { s.serve .qAdDone with first := some (s.hears .qAdDone) }) ∧
    (∀ adDone, s.phase = .u2Wait → s.first = some adDone → s.roundDue →
      exec .qAdNack s = .next (roundEnds s .qAdNack (adDone || s.hears .qAdNack)
        (fun t => if s.hears .qAdNack then fails .notAcknowledged { t with nacked := true }
                  else { t with nacked := false, phase := .u3Check })
        (fails .timeout))) ∧
    (s.phase = .u3Check → s.nacked = false → s.first = none →
      exec .qCtBusy s = .next { s.serve .qCtBusy with first := some (s.hears .qCtBusy) }) ∧
    (∀ busy, s.phase = .u3Check → s.nacked = false → s.first = some busy →
      exec .qCtMaster s = .next (if busy = true ∧ s.hears .qCtMaster = true
        then { s.serve .qCtMaster with phase := .u4Hi, first := none }
        else fails .busFault (s.serve .qCtMaster)))

/-- R144, R161: step 4, the address most significant byte first; after it a write goes to its data phase, a read to the
repeated start. -/
def Obligations.UnitStepFour : Prop :=
  ∀ s : State,
    (s.phase = .u4Hi → exec (.busSendByte (s.addr.extractLsb' 8 8)) s =
      .next { s.serve (.busSendByte (s.addr.extractLsb' 8 8)) with phase := .u4HiWait, first := none, wcnt := 0 }) ∧
    (s.phase = .u4HiWait → s.roundDue →
      exec .qTxEmpty s = .next (roundEnds s .qTxEmpty (s.hears .qTxEmpty)
        (fun t => { t with phase := .u4Lo }) (fails .timeout))) ∧
    (s.phase = .u4Lo → exec (.busSendByte (s.addr.extractLsb' 0 8)) s =
      .next { s.serve (.busSendByte (s.addr.extractLsb' 0 8)) with phase := .u4LoWait, first := none, wcnt := 0 }) ∧
    (s.phase = .u4LoWait → s.roundDue →
      exec .qTxEmpty s = .next (roundEnds s .qTxEmpty (s.hears .qTxEmpty)
        (fun t => { t with idx := 0, phase := if s.op.getLsbD 1 = true then .r5Start else .w5Data }) (fails .timeout)))

/-- R145, R55: step 5. The byte sent is `BUF[CUR + IDX]`; IDX counts on; the wait after the last byte is made too. -/
def Obligations.UnitStepFive : Prop :=
  ∀ s : State,
    (∀ v, s.phase = .w5Data → s.cur.toNat + s.idx.toNat < s.cfg.bufSize →
      Memory.read bufBlank s.buf (s.cur.toNat + s.idx.toNat) = some v →
      exec (.busSendByte v) s = .next { s.serve (.busSendByte v) with phase := .w5Wait, first := none, wcnt := 0 }) ∧
    (s.phase = .w5Wait → s.roundDue →
      exec .qTxEmpty s = .next (roundEnds s .qTxEmpty (s.hears .qTxEmpty)
        (fun t => { t with idx := s.idx + 1, phase := if s.idx + 1 < s.chunk then .w5Data else .uStop })
        (fails .timeout)))

/-- R146, R168, R232: step 6 of a write unit, step 8 of a read unit. A time-out of the idle wait is recorded only if nothing
failed before; a unit that failed completes the command with its failure (R184, R194). The two steps of a round are the
model's deduction (log entry 8). -/
def Obligations.UnitStopStepAndFailure : Prop :=
  ∀ s : State,
    (s.phase = .uStop →
      exec .busStop s = .next { s.serve .busStop with phase := .uStopWait, first := none, wcnt := 0 }) ∧
    (s.phase = .uStopWait → s.first = none →
      exec .qCtBusy s = .next { s.serve .qCtBusy with first := some (s.hears .qCtBusy) }) ∧
    (∀ busy, s.phase = .uStopWait → s.first = some busy → s.roundDue → s.result ≠ .ok →
      exec .qCtMaster s = .next (roundEnds s .qCtMaster (!busy && !s.hears .qCtMaster)
        (completes s.result) (completes s.result))) ∧
    (∀ busy, s.phase = .uStopWait → s.first = some busy → s.roundDue → s.result = .ok →
      (busy = true ∨ s.hears .qCtMaster = true) →
      exec .qCtMaster s = .next (roundEnds s .qCtMaster false id (completes .timeout)))

/-- R181, R183, R184, R136 (the first sample held is log entry 8): a successful read unit is followed by the advance and
the next unit, or by completion with `OK` when nothing is left; the address wraps modulo 2^16. -/
def Obligations.ReadLoopAfterUnit : Prop :=
  ∀ s : State, s.phase = .uStopWait → s.first = some false → s.hears .qCtMaster = false → s.result = .ok →
    s.op.getLsbD 1 = true →
    exec .qCtMaster s = .next (movesOn { s.serve .qCtMaster with first := none, wcnt := s.wcnt + 1 })

/-- R191, R195, R200 (the first sample held is log entry 8): every successful write unit is followed by a poll, which
makes its first attempt. -/
def Obligations.WriteUnitIsPolled : Prop :=
  ∀ s : State, s.phase = .uStopWait → s.first = some false → s.hears .qCtMaster = false → s.result = .ok →
    s.op.getLsbD 1 = false →
    exec .qCtMaster s =
      .next { s.serve .qCtMaster with phase := .pStart, first := none, wcnt := s.wcnt + 1, pcnt := 1 }

/-! ### The read unit -/

/-- R162: step 5, the repeated start. -/
def Obligations.ReadStepFive : Prop :=
  ∀ s : State,
    (s.phase = .r5Start →
      exec .busStart s = .next { s.serve .busStart with phase := .r5Wait, first := none, wcnt := 0 }) ∧
    (s.phase = .r5Wait → s.roundDue →
      exec .qStSent s = .next (roundEnds s .qStSent (s.hears .qStSent)
        (fun t => { t with phase := .r6Addr }) (fails .timeout)))

/-- R163: step 6; the wait is on `AD_DONE` alone, `AD_NACK` is not sampled. -/
def Obligations.ReadStepSix : Prop :=
  ∀ s : State,
    (s.phase = .r6Addr → exec (.busSendAddress s.cfg.devAddr .read) s =
      .next { s.serve (.busSendAddress s.cfg.devAddr .read) with phase := .r6Wait, first := none, wcnt := 0 }) ∧
    (s.phase = .r6Wait → s.roundDue →
      exec .qAdDone s = .next (roundEnds s .qAdDone (s.hears .qAdDone)
        (fun t => { t with phase := .r7Check }) (fails .timeout)))

/-- R164, R165, R166: the state test of step 7 and the acknowledge control. The two steps of the test's round are the model's
deduction (log entry 8). -/
def Obligations.ReadStepSevenBegins : Prop :=
  ∀ s : State,
    (s.phase = .r7Check → s.first = none →
      exec .qCtBusy s = .next { s.serve .qCtBusy with first := some (s.hears .qCtBusy) }) ∧
    (∀ busy, s.phase = .r7Check → s.first = some busy →
      exec .qCtMaster s = .next (if busy = true ∧ s.hears .qCtMaster = true
        then { s.serve .qCtMaster with
               idx := 0, phase := if 1 < s.chunk.toNat then .r7AckOn else .r7AckOff, first := none }
        else fails .busFault (s.serve .qCtMaster))) ∧
    (s.phase = .r7AckOn → exec (.busSetAck true) s =
      .next { s.serve (.busSetAck true) with phase := .r7Wait, first := none, wcnt := 0 }) ∧
    (s.phase = .r7AckOff → exec (.busSetAck false) s =
      .next { s.serve (.busSetAck false) with phase := .r7Wait, first := none, wcnt := 0 })

/-- R167: each byte is waited for, taken, stored at `BUF[CUR + IDX]`; IDX counts on, and the way on depends on it. -/
def Obligations.ReadStepSevenBytes : Prop :=
  ∀ s : State,
    (s.phase = .r7Wait → s.roundDue →
      exec .qRxFull s = .next (roundEnds s .qRxFull (s.hears .qRxFull)
        (fun t => { t with phase := .r7Recv }) (fails .timeout))) ∧
    (s.phase = .r7Recv → s.cur.toNat + s.idx.toNat < s.cfg.bufSize →
      exec .busRecvByte s = .next
        (let t : State := { s.serve .busRecvByte with
           buf := Memory.write bufBlank s.buf (s.cur.toNat + s.idx.toNat) (s.reply .busRecvByte), idx := s.idx + 1,
           first := none }
         if s.idx + 1 = s.chunk then { t with phase := .uStop }
         else if s.idx + 1 = s.chunk - 1 then { t with phase := .r7AckOff }
         else { t with phase := .r7Wait, wcnt := 0 }))

/-! ### The poll -/

/-- R201, R202: an attempt's start and its address with Read intent; a time-out goes to the attempt's stop with `Timeout`
recorded (R205). The two steps of a round are the model's deduction (log entry 8). -/
def Obligations.PollStartAndAddress : Prop :=
  ∀ s : State,
    (s.phase = .pStart →
      exec .busStart s = .next { s.serve .busStart with phase := .pStartWait, first := none, wcnt := 0 }) ∧
    (s.phase = .pStartWait → s.roundDue →
      exec .qStSent s = .next (roundEnds s .qStSent (s.hears .qStSent)
        (fun t => { t with phase := .pAddr }) (fun t => { t with result := .timeout, phase := .pStop }))) ∧
    (s.phase = .pAddr → exec (.busSendAddress s.cfg.devAddr .read) s =
      .next { s.serve (.busSendAddress s.cfg.devAddr .read) with phase := .pAddrWait, first := none, wcnt := 0 }) ∧
    (s.phase = .pAddrWait → s.first = none →
      exec .qAdDone s = .next { s.serve .qAdDone with first := some (s.hears .qAdDone) }) ∧
    (∀ adDone, s.phase = .pAddrWait → s.first = some adDone → s.roundDue →
      exec .qAdNack s = .next (roundEnds s .qAdNack (adDone || s.hears .qAdNack)
        (fun t => { t with nacked := s.hears .qAdNack, phase := .pStop })
        (fun t => { t with result := .timeout, phase := .pStop })))

/-- R203, R204, R193: the attempt's stop; its time-out ends the poll; else acknowledged goes on with the loop, refused clears
the flag. The two steps of a round are the model's deduction (log entry 8). -/
def Obligations.PollStopAndDecision : Prop :=
  ∀ s : State,
    (s.phase = .pStop →
      exec .busStop s = .next { s.serve .busStop with phase := .pStopWait, first := none, wcnt := 0 }) ∧
    (s.phase = .pStopWait → s.first = none →
      exec .qCtBusy s = .next { s.serve .qCtBusy with first := some (s.hears .qCtBusy) }) ∧
    (∀ busy, s.phase = .pStopWait → s.first = some busy → s.roundDue → s.result = .ok →
      exec .qCtMaster s = .next (roundEnds s .qCtMaster (!busy && !s.hears .qCtMaster)
        (fun t => if s.nacked = true then { t with phase := .pClear } else movesOn t)
        (completes .timeout)))

/-- R200, R204: after a refused attempt the flag is cleared, and the poll tries again, or returns `Timeout` when PCNT has come
to POLL_LIMIT. -/
def Obligations.PollRetriesUpToLimit : Prop :=
  ∀ s : State, s.phase = .pClear → (∀ n, s.cfg.pollLimit.value = some n → s.pcnt ≤ n) →
    exec .busClearNack s = .next
      (if s.cfg.pollLimit.value = some s.pcnt then completes .timeout (s.serve .busClearNack)
       else { s.serve .busClearNack with phase := .pStart, first := none, pcnt := s.pcnt + 1 }) ∧
    (s.serve .busClearNack).env.adNack = false

/-- R205: after a time-out inside an attempt its stop is issued and awaited, the result of that wait is ignored, and the poll
returns `Timeout`; `bus_clear_nack()` is not called. The two steps of a round are the model's deduction (log entry 8). -/
def Obligations.PollTimeoutInsideAttempt : Prop :=
  ∀ (s : State) (busy : Bool), s.phase = .pStopWait → s.first = some busy → s.roundDue → s.result ≠ .ok →
    exec .qCtMaster s = .next (roundEnds s .qCtMaster (!busy && !s.hears .qCtMaster)
      (completes .timeout) (completes .timeout))

/-! ### Calls by others, responses, frames -/

/-- P3, R260: while no command runs, a primitive called from outside is served by the environment and the block is as it was;
R101, U4: while one runs, a call that is not the block's own is refused. That the former is served and
the latter refused is the model's deduction (log entry 13). -/
def Obligations.CallsByOthers : Prop :=
  ∀ (s : State) (i : Instr), i.isCommand = false →
    (s.busy = false → s.phase = .idle → exec i s = .next (s.serve i) ∧ SameBlock s (s.serve i)) ∧
    (s.busy = true → s.nextCall ≠ .next (some i) → exec i s = .refused .busInUse)

/-- R85: the request word and the response of a call: `{0000000, flag}` for a query, the received byte for
`bus_recv_byte`, 0 otherwise; R77, U11: a forced answer is the answer, and the oracle's is any value. The list of forced
answers is the model's deduction (log entry 7). The last clause, that with the oracle nothing of the flags, the device's
memory, its pointer or its write cycle carries over a call, is the model's deduction too (log entry 19, in the free-value
form of log entry 2): R78 only forbids assuming that they stay. -/
def Obligations.RequestAndResponse : Prop :=
  ∀ (s : State) (i : Instr), i.isCommand = false →
    (∃ w, encode i = .pw w ∧ (s.serve i).pw = some w) ∧
    (i.isQuery = true → (s.serve i).rsp.extractLsb' 1 7 = (0 : BitVec 7)) ∧
    (i.isQuery = false → i ≠ .busRecvByte → (s.serve i).rsp = 0) ∧
    (∀ v rest, s.forced = some v :: rest → i = .busRecvByte → (s.serve i).rsp = v ∧ (s.serve i).forced = rest) ∧
    (∀ v rest, s.forced = some v :: rest → i.isQuery = true →
      (s.serve i).rsp.getLsbD 0 = v.getLsbD 0 ∧ (s.serve i).forced = rest) ∧
    (s.env.kind = .oracle → ∀ e : Env, e.kind = .oracle →
      ({ s with env := e } : State).reply i = s.reply i ∧
      (({ s with env := e } : State).serve i).env =
        { (s.serve i).env with
          present := e.present, wcNacks := e.wcNacks, mode := e.mode, latch := e.latch, dr := e.dr,
          ackEn := (({ s with env := e } : State).serve i).env.ackEn })

/-- Frame of `bus_start`, `bus_send_address`, `bus_send_byte`, `bus_set_ack` (R102, R104, R105, R107): only PHASE, WCNT
and the held sample of the block may change; BUF is unchanged, and in the reference environment the device's memory (with
the oracle that is free, log entry 19). -/
def Obligations.PlainActionFrame : Prop :=
  ∀ (s t : State) (i : Instr),
    (i = .busStart ∨ (∃ a n, i = .busSendAddress a n) ∨ (∃ b, i = .busSendByte b) ∨ (∃ e, i = .busSetAck e)) →
    exec i s = .next t →
    SameFrame s t ∧ SameOperands s t ∧ SameStatusBits s t ∧ t.idx = s.idx ∧ t.nacked = s.nacked ∧ t.result = s.result ∧
    t.pcnt = s.pcnt ∧ SameBuf s t ∧ SameDevice s t

/-- Frame of `bus_stop` and `bus_clear_nack` (R103, R108, R204): `bus_stop` may record a failure only where it follows `raise`
(NACKED = 1 in `U3_CHECK`) and may, in the reference environment, change the device only at the latched addresses (R76);
`bus_clear_nack` may change PCNT, and end the command with `Timeout`. -/
def Obligations.StopAndClearFrame : Prop :=
  ∀ s t : State,
    (exec .busStop s = .next t →
      SameFrame s t ∧ SameOperands s t ∧ SameStatusBits s t ∧ t.idx = s.idx ∧ t.nacked = s.nacked ∧ t.pcnt = s.pcnt ∧
      (¬ (s.phase = .u3Check ∧ s.nacked = true) → t.result = s.result) ∧ SameBuf s t ∧
      (s.env.kind = .reference → ∀ a, (∀ c ∈ s.env.latch, c.1 ≠ a) → t.env.memRead a = s.env.memRead a)) ∧
    (exec .busClearNack s = .next t →
      SameFrame s t ∧ SameOperands s t ∧ t.idx = s.idx ∧ t.nacked = s.nacked ∧ t.wcnt = s.wcnt ∧
      (t.busy = s.busy ∨ t.result = .timeout) ∧ SameBuf s t ∧ SameDevice s t)

/-- Frame of the seven queries (R109 to R114): OP and BUF are unchanged by all, and in the reference environment the
device's memory; the unit's operands by all but `q_ct_master`, which ends a unit or an attempt; NACKED by all but
`q_ad_nack`; IDX by all but `q_tx_empty` and `q_ct_master`; BUSY and DONE by all but `q_ct_master`; PCNT by all but
`q_ct_master`. -/
def Obligations.QueryFrame : Prop :=
  ∀ (s t : State) (i : Instr), i.isQuery = true → exec i s = .next t →
    SameFrame s t ∧ SameBuf s t ∧ SameDevice s t ∧
    (i ≠ .qCtMaster → SameOperands s t ∧ SameStatusBits s t ∧ t.pcnt = s.pcnt) ∧
    (i ≠ .qAdNack → t.nacked = s.nacked) ∧
    (i ≠ .qTxEmpty → i ≠ .qCtMaster → t.idx = s.idx)

/-- Frame of `bus_recv_byte` (R106, R167): of BUF only the byte at `CUR + IDX` may change, and only in `R7_RECV`; of the
registers only IDX, PHASE, WCNT and the held sample; in the reference environment the device's memory is unchanged. -/
def Obligations.ReceiveFrame : Prop :=
  ∀ s t : State, exec .busRecvByte s = .next t →
    SameFrame s t ∧ SameOperands s t ∧ SameStatusBits s t ∧ t.nacked = s.nacked ∧ t.result = s.result ∧ t.pcnt = s.pcnt ∧
    (∀ a, a ≠ s.cur.toNat + s.idx.toNat → Memory.read bufBlank t.buf a = Memory.read bufBlank s.buf a) ∧
    (s.phase ≠ .r7Recv → SameBuf s t) ∧ SameDevice s t

/-! ### The reference environment -/

/-- R71: `bus_start()` in the reference environment. -/
def Obligations.ReferenceStart : Prop :=
  ∀ s : State, s.env.kind = .reference →
    (s.serve .busStart).env =
      { s.env with ctBusy := true, ctMaster := true, stSent := true, adDone := false, txEmpty := false, rxFull := false,
                   mode := .idle, latch := [] }

/-- R72: `bus_send_address(a7, intent)` in the reference environment. -/
def Obligations.ReferenceSendAddress : Prop :=
  ∀ (s : State) (a7 : BitVec 7), s.env.kind = .reference →
    (s.env.present = true → a7 = s.cfg.devAddr → s.env.wbusy = 0 →
      (s.serve (.busSendAddress a7 .write)).env =
        { s.env with stSent := false, adDone := true, mode := .wAddr0, txEmpty := true } ∧
      (s.serve (.busSendAddress a7 .read)).env =
        { s.env with stSent := false, adDone := true, mode := .rData, rxFull := true,
                     dr := s.env.memRead (s.env.ptr.toNat % s.cfg.capacity),
                     ptr := BitVec.ofNat 16 ((s.env.ptr.toNat + 1) % s.cfg.capacity) }) ∧
    (∀ intent, s.env.present = true → a7 = s.cfg.devAddr → s.env.wbusy ≠ 0 →
      (s.serve (.busSendAddress a7 intent)).env =
        { s.env with stSent := false, adNack := true, wbusy := s.env.wbusy - 1 }) ∧
    (∀ intent, (s.env.present = false ∨ a7 ≠ s.cfg.devAddr) →
      (s.serve (.busSendAddress a7 intent)).env = { s.env with stSent := false, adNack := true })

/-- R73: `bus_send_byte(b)` in the reference environment; the pointer after a data byte stays in its page,
which R73 marks "from general knowledge, not in source". -/
def Obligations.ReferenceSendByte : Prop :=
  ∀ (s : State) (b : Byte), s.env.kind = .reference →
    (s.env.mode = .wAddr0 → (s.serve (.busSendByte b)).env =
      { s.env with ptr := b ++ (s.env.ptr.extractLsb' 0 8 : Byte), mode := .wAddr1, txEmpty := true }) ∧
    (s.env.mode = .wAddr1 → (s.serve (.busSendByte b)).env =
      { s.env with ptr := (s.env.ptr.extractLsb' 8 8 : Byte) ++ b, mode := .wData, txEmpty := true }) ∧
    (s.env.mode = .wData → ∃ p : Half,
      (s.serve (.busSendByte b)).env =
        { s.env with latch := s.env.latch ++ [(s.env.ptr.toNat % s.cfg.capacity, b)], ptr := p, txEmpty := true } ∧
      p.toNat / s.cfg.pageSize = s.env.ptr.toNat / s.cfg.pageSize ∧
      p.toNat % s.cfg.pageSize = (s.env.ptr.toNat + 1) % s.cfg.pageSize) ∧
    (s.env.mode = .idle ∨ s.env.mode = .rData → (s.serve (.busSendByte b)).env = s.env)

/-- R74, R75: `bus_recv_byte()`, `bus_set_ack(en)` and `bus_clear_nack()` in the reference environment. -/
def Obligations.ReferenceReceiveAndAck : Prop :=
  ∀ s : State, s.env.kind = .reference →
    (s.forced = [] → s.reply .busRecvByte = s.env.dr) ∧
    (s.env.mode = .rData → s.env.ackEn = true → (s.serve .busRecvByte).env =
      { s.env with rxFull := true, dr := s.env.memRead (s.env.ptr.toNat % s.cfg.capacity),
                   ptr := BitVec.ofNat 16 ((s.env.ptr.toNat + 1) % s.cfg.capacity) }) ∧
    (s.env.mode = .rData → s.env.ackEn = false →
      (s.serve .busRecvByte).env = { s.env with rxFull := false, mode := .idle }) ∧
    (s.env.mode ≠ .rData → (s.serve .busRecvByte).env = { s.env with rxFull := false }) ∧
    (∀ en, (s.serve (.busSetAck en)).env = { s.env with ackEn := en }) ∧
    (s.serve .busClearNack).env = { s.env with adNack := false }

/-- R76: `bus_stop()` in the reference environment: the flags; the latched pairs written in order; the write cycle, whose
start R76 marks "from general knowledge, not in source". -/
def Obligations.ReferenceStop : Prop :=
  ∀ s : State, s.env.kind = .reference → s.MemoryOk →
    (s.env.mode = .wData → s.env.latch ≠ [] →
      (s.serve .busStop).env.wbusy = s.env.wcNacks ∧
      ∀ a, (s.serve .busStop).env.memRead a = lastLatched s.env.latch a (s.env.memRead a)) ∧
    (¬ (s.env.mode = .wData ∧ s.env.latch ≠ []) →
      (s.serve .busStop).env.wbusy = s.env.wbusy ∧ (s.serve .busStop).env.mem = s.env.mem) ∧
    (s.serve .busStop).env =
      { s.env with ctBusy := false, ctMaster := false, stSent := false, adDone := false, txEmpty := false,
                   rxFull := false, latch := [], mode := .idle, wbusy := (s.serve .busStop).env.wbusy,
                   mem := (s.serve .busStop).env.mem }

/-- R77: a status query returns the current value of its flag, or the forced value where one is forced on the call, and
changes nothing. The list of forced answers is the model's deduction (log entry 7). -/
def Obligations.ReferenceQueries : Prop :=
  ∀ s : State, s.env.kind = .reference →
    (s.forced = [] →
      s.hears .qStSent = s.env.stSent ∧ s.hears .qAdDone = s.env.adDone ∧ s.hears .qAdNack = s.env.adNack ∧
      s.hears .qTxEmpty = s.env.txEmpty ∧ s.hears .qRxFull = s.env.rxFull ∧ s.hears .qCtBusy = s.env.ctBusy ∧
      s.hears .qCtMaster = s.env.ctMaster) ∧
    ∀ i : Instr, i.isQuery = true →
      (s.serve i).env = s.env ∧ (∀ v rest, s.forced = some v :: rest → s.hears i = v.getLsbD 0)

/-- R44, R111: in the reference environment a set AD_NACK stays set until `bus_clear_nack()`. -/
def Obligations.AckFailureFlagIsSticky : Prop :=
  ∀ (s t : State) (i : Instr), s.env.kind = .reference → s.env.adNack = true → i ≠ .busClearNack →
    exec i s = .next t → t.env.adNack = true

/-! ### Page arithmetic -/

/-- R130: the closed form, which the spec derives, and what it is: the largest length not above the requested one that
does not pass the start of the next page. -/
def Obligations.ChunkIsLargestInsidePage : Prop :=
  ∀ a L k : Nat, k ≤ 16 →
    chunkLength a L (2 ^ k) = min L (2 ^ k - a % 2 ^ k) ∧
    chunkLength a L (2 ^ k) ≤ L ∧ a + chunkLength a L (2 ^ k) ≤ (a / 2 ^ k + 1) * 2 ^ k ∧
    ∀ n, n ≤ L → a + n ≤ (a / 2 ^ k + 1) * 2 ^ k → n ≤ chunkLength a L (2 ^ k)

/-- R132, R133: the laws of the page arithmetic, the boundary case `a + L` = start of the next page included; R133's are
what the spec derives from R130. -/
def Obligations.ChunkLaws : Prop :=
  ∀ a L k : Nat, k ≤ 16 →
    (chunkLength a L (2 ^ k) ≤ L ∧ a + chunkLength a L (2 ^ k) ≤ (a / 2 ^ k + 1) * 2 ^ k) ∧
    (a + L = (a / 2 ^ k + 1) * 2 ^ k → chunkLength a L (2 ^ k) = L) ∧
    (L ≤ 2 ^ k → a / 2 ^ k = (a + L) / 2 ^ k → chunkLength a L (2 ^ k) = L) ∧
    (chunkLength a L (2 ^ k) = 0 ↔ L = 0) ∧
    (1 ≤ L → 1 ≤ chunkLength a L (2 ^ k) ∧ chunkLength a L (2 ^ k) ≤ min L (2 ^ k)) ∧
    (chunkLength a L (2 ^ k) = L ↔ L ≤ 2 ^ k - a % 2 ^ k) ∧
    (chunkLength a L (2 ^ k) < L → (a + chunkLength a L (2 ^ k)) % 2 ^ k = 0) ∧
    (a % 2 ^ k = 0 → chunkLength a L (2 ^ k) = min L (2 ^ k))

/-- R53, R140, R160, R23: a running unit has at least one byte, no more than are left, and does not cross a page boundary. -/
def Obligations.UnitStaysInsidePage : Prop :=
  ∀ s : State, s.Control → s.busy = true →
    1 ≤ s.chunk.toNat ∧ s.chunk.toNat ≤ s.rem.toNat ∧ s.chunk.toNat ≤ s.cfg.pageSize ∧
    s.addr.toNat % s.cfg.pageSize + s.chunk.toNat ≤ s.cfg.pageSize

/-! ### Whole-machine rules -/

/-- Both memories keep their canonical form in every step, whoever makes it. -/
def Obligations.MemoriesStayCanonical : Prop :=
  ∀ s t : State, s.MemoryOk → step s = .next t → t.MemoryOk

/-- The control invariant is kept by every step: R24, R32, R33, R36, R38, R121, R143, R165, R166, R182, R204, R231. -/
def Obligations.ControlIsInvariant : Prop :=
  ∀ s t : State, s.Control → step s = .next t → t.Control

/-- Both invariants hold after reset, whatever the parameters. The registers R250 calls unspecified hold the model's 0
there (log entry 1, a DESIGN CHOICE), and the environment the model's initial one (log entry 5). -/
def Obligations.InvariantsHoldAtReset : Prop :=
  ∀ c : Config, (State.resetWith c).MemoryOk ∧ (State.resetWith c).Control

/-- R7, D29: no step changes a parameter. -/
def Obligations.ParametersNeverChange : Prop :=
  ∀ s t : State, step s = .next t → t.cfg = s.cfg

/-- R27: PHASE advances only as the step rules say, but for the reset input. -/
def Obligations.PhaseFollowsTheRules : Prop :=
  ∀ s t : State, s.Control → (∀ rest, s.host ≠ .reset :: rest) → step s = .next t →
    t.phase = s.phase ∨ t.phase ∈ s.phase.successors

/-- R38, R147, R231, R234: a command ends only after a stop step: from a stop wait, or after the poll's last refused
attempt was stopped and cleared; and it ends with DONE = 1 and PHASE = IDLE. -/
def Obligations.CommandEndsOnlyAfterStop : Prop :=
  ∀ s t : State, (∀ rest, s.host ≠ .reset :: rest) → step s = .next t → s.busy = true → t.busy = false →
    (s.phase = .uStopWait ∨ s.phase = .pStopWait ∨ s.phase = .pClear) ∧ t.phase = .idle ∧ t.done = true

/-- R195: a write command returns `OK` only after an acknowledged poll attempt, whose stop wait ends the command. -/
def Obligations.WriteOkMeansAcknowledgedPoll : Prop :=
  ∀ s t : State, s.Control → (∀ rest, s.host ≠ .reset :: rest) → step s = .next t → s.busy = true → t.busy = false →
    s.op.getLsbD 1 = false → t.result = .ok → s.phase = .pStopWait ∧ s.nacked = false ∧ t.rem = 0

/-- R230: the first failure of a command wins: no step of the command replaces it, and the command ends with it. -/
def Obligations.FirstFailureWins : Prop :=
  ∀ s t : State, s.Control → (∀ rest, s.host ≠ .reset :: rest) → s.busy = true → s.result ≠ .ok →
    step s = .next t → t.result = s.result

/-- R39, R51, R167: a byte of BUF changes only by the host's write, by the reset input, or by the byte received in
`R7_RECV` at `CUR + IDX`. -/
def Obligations.BufferWrittenOnlyByReceive : Prop :=
  ∀ (s t : State) (a : Nat), step s = .next t →
    Memory.read bufBlank t.buf a ≠ Memory.read bufBlank s.buf a →
    (∃ i v rest, s.host = .writeBuf i v :: rest ∧ a = i.toNat) ∨ (∃ rest, s.host = .reset :: rest) ∨
    (s.phase = .r7Recv ∧ a = s.cur.toNat + s.idx.toNat)

/-- R28, R123: what the block does next depends on the environment only through the answer of the call: two states that differ
in the environment alone, and whose environments answer alike, go on alike in every register of the block. -/
def Obligations.BlockSeesOnlyAnswers : Prop :=
  ∀ (s t : State) (i : Instr) (e : Env) (f : List (Option Byte)) (n : Nat),
    s.reply i = ({ s with env := e, forced := f, draws := n } : State).reply i → exec i s = .next t →
    ∃ u, exec i { s with env := e, forced := f, draws := n } = .next u ∧
      u = { t with env := u.env, forced := u.forced, draws := u.draws }

/-- R10, R62: the block never reads CAPACITY: with an environment that answers from the oracle, a machine with another
capacity takes the same steps. -/
def Obligations.CapacityIsNeverRead : Prop :=
  ∀ (s : State) (c : Nat), s.env.kind = .oracle →
    step (withCapacity c s) = mapNext (withCapacity c) (step s)

/-- R38, R39, R227: a command whose caller has kept the contract never stops the machine: every state of its run has a next
state, in which the invariants and the contract still hold. -/
def Obligations.ContractKeepsRunning : Prop :=
  ∀ s : State, s.Control → s.Contract → s.host = [] →
    ∃ t, step s = .next t ∧ t.Control ∧ t.Contract ∧ t.host = []

/-- R121, R183, R200, R227: with both bounds a number, every command whose caller has kept the contract completes,
whatever the environment answers. -/
def Obligations.BoundedCommandCompletes : Prop :=
  ∀ (s : State) (w p : Nat), s.Control → s.Contract → s.host = [] → s.busy = true →
    s.cfg.waitLimit.value = some w → s.cfg.pollLimit.value = some p →
    ∃ n t, Host.Core.run Sys2Proof.core n s = .next t ∧ t.busy = false ∧ t.done = true ∧ t.phase = .idle
end

