-- ==== Sys2Proof/Laws/State.lean ====
section
/-! SUPPORT. What each named update of the state does to each field, by rfl. -/

namespace Sys2Proof.Machine

/-! ### `State.goto` -/

@[simp] theorem State.goto_cfg (p : Phase) (s : State) : (s.goto p).cfg = s.cfg := rfl
@[simp] theorem State.goto_phase (p : Phase) (s : State) : (s.goto p).phase = p := rfl
@[simp] theorem State.goto_op (p : Phase) (s : State) : (s.goto p).op = s.op := rfl
@[simp] theorem State.goto_addr (p : Phase) (s : State) : (s.goto p).addr = s.addr := rfl
@[simp] theorem State.goto_cur (p : Phase) (s : State) : (s.goto p).cur = s.cur := rfl
@[simp] theorem State.goto_rem (p : Phase) (s : State) : (s.goto p).rem = s.rem := rfl
@[simp] theorem State.goto_chunk (p : Phase) (s : State) : (s.goto p).chunk = s.chunk := rfl
@[simp] theorem State.goto_idx (p : Phase) (s : State) : (s.goto p).idx = s.idx := rfl
@[simp] theorem State.goto_nacked (p : Phase) (s : State) : (s.goto p).nacked = s.nacked := rfl
@[simp] theorem State.goto_result (p : Phase) (s : State) : (s.goto p).result = s.result := rfl
@[simp] theorem State.goto_busy (p : Phase) (s : State) : (s.goto p).busy = s.busy := rfl
@[simp] theorem State.goto_done (p : Phase) (s : State) : (s.goto p).done = s.done := rfl
@[simp] theorem State.goto_wcnt (p : Phase) (s : State) : (s.goto p).wcnt = s.wcnt := rfl
@[simp] theorem State.goto_pcnt (p : Phase) (s : State) : (s.goto p).pcnt = s.pcnt := rfl
@[simp] theorem State.goto_buf (p : Phase) (s : State) : (s.goto p).buf = s.buf := rfl
@[simp] theorem State.goto_first (p : Phase) (s : State) : (s.goto p).first = none := rfl
@[simp] theorem State.goto_pw (p : Phase) (s : State) : (s.goto p).pw = s.pw := rfl
@[simp] theorem State.goto_rsp (p : Phase) (s : State) : (s.goto p).rsp = s.rsp := rfl
@[simp] theorem State.goto_env (p : Phase) (s : State) : (s.goto p).env = s.env := rfl
@[simp] theorem State.goto_forced (p : Phase) (s : State) : (s.goto p).forced = s.forced := rfl
@[simp] theorem State.goto_draws (p : Phase) (s : State) : (s.goto p).draws = s.draws := rfl
@[simp] theorem State.goto_host (p : Phase) (s : State) : (s.goto p).host = s.host := rfl
@[simp] theorem State.goto_rdata (p : Phase) (s : State) : (s.goto p).rdata = s.rdata := rfl

/-! ### `State.enterWait` -/

@[simp] theorem State.enterWait_cfg (p : Phase) (s : State) : (s.enterWait p).cfg = s.cfg := rfl
@[simp] theorem State.enterWait_phase (p : Phase) (s : State) : (s.enterWait p).phase = p := rfl
@[simp] theorem State.enterWait_op (p : Phase) (s : State) : (s.enterWait p).op = s.op := rfl
@[simp] theorem State.enterWait_addr (p : Phase) (s : State) : (s.enterWait p).addr = s.addr := rfl
@[simp] theorem State.enterWait_cur (p : Phase) (s : State) : (s.enterWait p).cur = s.cur := rfl
@[simp] theorem State.enterWait_rem (p : Phase) (s : State) : (s.enterWait p).rem = s.rem := rfl
@[simp] theorem State.enterWait_chunk (p : Phase) (s : State) : (s.enterWait p).chunk = s.chunk := rfl
@[simp] theorem State.enterWait_idx (p : Phase) (s : State) : (s.enterWait p).idx = s.idx := rfl
@[simp] theorem State.enterWait_nacked (p : Phase) (s : State) : (s.enterWait p).nacked = s.nacked := rfl
@[simp] theorem State.enterWait_result (p : Phase) (s : State) : (s.enterWait p).result = s.result := rfl
@[simp] theorem State.enterWait_busy (p : Phase) (s : State) : (s.enterWait p).busy = s.busy := rfl
@[simp] theorem State.enterWait_done (p : Phase) (s : State) : (s.enterWait p).done = s.done := rfl
@[simp] theorem State.enterWait_wcnt (p : Phase) (s : State) : (s.enterWait p).wcnt = 0 := rfl
@[simp] theorem State.enterWait_pcnt (p : Phase) (s : State) : (s.enterWait p).pcnt = s.pcnt := rfl
@[simp] theorem State.enterWait_buf (p : Phase) (s : State) : (s.enterWait p).buf = s.buf := rfl
@[simp] theorem State.enterWait_first (p : Phase) (s : State) : (s.enterWait p).first = none := rfl
@[simp] theorem State.enterWait_pw (p : Phase) (s : State) : (s.enterWait p).pw = s.pw := rfl
@[simp] theorem State.enterWait_rsp (p : Phase) (s : State) : (s.enterWait p).rsp = s.rsp := rfl
@[simp] theorem State.enterWait_env (p : Phase) (s : State) : (s.enterWait p).env = s.env := rfl
@[simp] theorem State.enterWait_forced (p : Phase) (s : State) : (s.enterWait p).forced = s.forced := rfl
@[simp] theorem State.enterWait_draws (p : Phase) (s : State) : (s.enterWait p).draws = s.draws := rfl
@[simp] theorem State.enterWait_host (p : Phase) (s : State) : (s.enterWait p).host = s.host := rfl
@[simp] theorem State.enterWait_rdata (p : Phase) (s : State) : (s.enterWait p).rdata = s.rdata := rfl

/-! ### `State.raise` -/

@[simp] theorem State.raise_cfg (e : Result) (s : State) : (s.raise e).cfg = s.cfg := rfl
@[simp] theorem State.raise_phase (e : Result) (s : State) : (s.raise e).phase = .uStop := rfl
@[simp] theorem State.raise_op (e : Result) (s : State) : (s.raise e).op = s.op := rfl
@[simp] theorem State.raise_addr (e : Result) (s : State) : (s.raise e).addr = s.addr := rfl
@[simp] theorem State.raise_cur (e : Result) (s : State) : (s.raise e).cur = s.cur := rfl
@[simp] theorem State.raise_rem (e : Result) (s : State) : (s.raise e).rem = s.rem := rfl
@[simp] theorem State.raise_chunk (e : Result) (s : State) : (s.raise e).chunk = s.chunk := rfl
@[simp] theorem State.raise_idx (e : Result) (s : State) : (s.raise e).idx = s.idx := rfl
@[simp] theorem State.raise_nacked (e : Result) (s : State) : (s.raise e).nacked = s.nacked := rfl
@[simp] theorem State.raise_result (e : Result) (s : State) : (s.raise e).result = firstFailure s.result e := rfl
@[simp] theorem State.raise_busy (e : Result) (s : State) : (s.raise e).busy = s.busy := rfl
@[simp] theorem State.raise_done (e : Result) (s : State) : (s.raise e).done = s.done := rfl
@[simp] theorem State.raise_wcnt (e : Result) (s : State) : (s.raise e).wcnt = s.wcnt := rfl
@[simp] theorem State.raise_pcnt (e : Result) (s : State) : (s.raise e).pcnt = s.pcnt := rfl
@[simp] theorem State.raise_buf (e : Result) (s : State) : (s.raise e).buf = s.buf := rfl
@[simp] theorem State.raise_first (e : Result) (s : State) : (s.raise e).first = none := rfl
@[simp] theorem State.raise_pw (e : Result) (s : State) : (s.raise e).pw = s.pw := rfl
@[simp] theorem State.raise_rsp (e : Result) (s : State) : (s.raise e).rsp = s.rsp := rfl
@[simp] theorem State.raise_env (e : Result) (s : State) : (s.raise e).env = s.env := rfl
@[simp] theorem State.raise_forced (e : Result) (s : State) : (s.raise e).forced = s.forced := rfl
@[simp] theorem State.raise_draws (e : Result) (s : State) : (s.raise e).draws = s.draws := rfl
@[simp] theorem State.raise_host (e : Result) (s : State) : (s.raise e).host = s.host := rfl
@[simp] theorem State.raise_rdata (e : Result) (s : State) : (s.raise e).rdata = s.rdata := rfl

/-! ### `State.complete` -/

@[simp] theorem State.complete_cfg (r : Result) (s : State) : (s.complete r).cfg = s.cfg := rfl
@[simp] theorem State.complete_phase (r : Result) (s : State) : (s.complete r).phase = .idle := rfl
@[simp] theorem State.complete_op (r : Result) (s : State) : (s.complete r).op = s.op := rfl
@[simp] theorem State.complete_addr (r : Result) (s : State) : (s.complete r).addr = s.addr := rfl
@[simp] theorem State.complete_cur (r : Result) (s : State) : (s.complete r).cur = s.cur := rfl
@[simp] theorem State.complete_rem (r : Result) (s : State) : (s.complete r).rem = s.rem := rfl
@[simp] theorem State.complete_chunk (r : Result) (s : State) : (s.complete r).chunk = s.chunk := rfl
@[simp] theorem State.complete_idx (r : Result) (s : State) : (s.complete r).idx = s.idx := rfl
@[simp] theorem State.complete_nacked (r : Result) (s : State) : (s.complete r).nacked = s.nacked := rfl
@[simp] theorem State.complete_result (r : Result) (s : State) : (s.complete r).result = r := rfl
@[simp] theorem State.complete_busy (r : Result) (s : State) : (s.complete r).busy = false := rfl
@[simp] theorem State.complete_done (r : Result) (s : State) : (s.complete r).done = true := rfl
@[simp] theorem State.complete_wcnt (r : Result) (s : State) : (s.complete r).wcnt = s.wcnt := rfl
@[simp] theorem State.complete_pcnt (r : Result) (s : State) : (s.complete r).pcnt = s.pcnt := rfl
@[simp] theorem State.complete_buf (r : Result) (s : State) : (s.complete r).buf = s.buf := rfl
@[simp] theorem State.complete_first (r : Result) (s : State) : (s.complete r).first = none := rfl
@[simp] theorem State.complete_pw (r : Result) (s : State) : (s.complete r).pw = s.pw := rfl
@[simp] theorem State.complete_rsp (r : Result) (s : State) : (s.complete r).rsp = s.rsp := rfl
@[simp] theorem State.complete_env (r : Result) (s : State) : (s.complete r).env = s.env := rfl
@[simp] theorem State.complete_forced (r : Result) (s : State) : (s.complete r).forced = s.forced := rfl
@[simp] theorem State.complete_draws (r : Result) (s : State) : (s.complete r).draws = s.draws := rfl
@[simp] theorem State.complete_host (r : Result) (s : State) : (s.complete r).host = s.host := rfl
@[simp] theorem State.complete_rdata (r : Result) (s : State) : (s.complete r).rdata = s.rdata := rfl

/-! ### `State.holdFirst` -/

@[simp] theorem State.holdFirst_cfg (s : State) : (s.holdFirst).cfg = s.cfg := rfl
@[simp] theorem State.holdFirst_phase (s : State) : (s.holdFirst).phase = s.phase := rfl
@[simp] theorem State.holdFirst_op (s : State) : (s.holdFirst).op = s.op := rfl
@[simp] theorem State.holdFirst_addr (s : State) : (s.holdFirst).addr = s.addr := rfl
@[simp] theorem State.holdFirst_cur (s : State) : (s.holdFirst).cur = s.cur := rfl
@[simp] theorem State.holdFirst_rem (s : State) : (s.holdFirst).rem = s.rem := rfl
@[simp] theorem State.holdFirst_chunk (s : State) : (s.holdFirst).chunk = s.chunk := rfl
@[simp] theorem State.holdFirst_idx (s : State) : (s.holdFirst).idx = s.idx := rfl
@[simp] theorem State.holdFirst_nacked (s : State) : (s.holdFirst).nacked = s.nacked := rfl
@[simp] theorem State.holdFirst_result (s : State) : (s.holdFirst).result = s.result := rfl
@[simp] theorem State.holdFirst_busy (s : State) : (s.holdFirst).busy = s.busy := rfl
@[simp] theorem State.holdFirst_done (s : State) : (s.holdFirst).done = s.done := rfl
@[simp] theorem State.holdFirst_wcnt (s : State) : (s.holdFirst).wcnt = s.wcnt := rfl
@[simp] theorem State.holdFirst_pcnt (s : State) : (s.holdFirst).pcnt = s.pcnt := rfl
@[simp] theorem State.holdFirst_buf (s : State) : (s.holdFirst).buf = s.buf := rfl
@[simp] theorem State.holdFirst_first (s : State) : (s.holdFirst).first = some s.flag := rfl
@[simp] theorem State.holdFirst_pw (s : State) : (s.holdFirst).pw = s.pw := rfl
@[simp] theorem State.holdFirst_rsp (s : State) : (s.holdFirst).rsp = s.rsp := rfl
@[simp] theorem State.holdFirst_env (s : State) : (s.holdFirst).env = s.env := rfl
@[simp] theorem State.holdFirst_forced (s : State) : (s.holdFirst).forced = s.forced := rfl
@[simp] theorem State.holdFirst_draws (s : State) : (s.holdFirst).draws = s.draws := rfl
@[simp] theorem State.holdFirst_host (s : State) : (s.holdFirst).host = s.host := rfl
@[simp] theorem State.holdFirst_rdata (s : State) : (s.holdFirst).rdata = s.rdata := rfl

/-! ### `State.countRound` -/

@[simp] theorem State.countRound_cfg (s : State) : (s.countRound).cfg = s.cfg := rfl
@[simp] theorem State.countRound_phase (s : State) : (s.countRound).phase = s.phase := rfl
@[simp] theorem State.countRound_op (s : State) : (s.countRound).op = s.op := rfl
@[simp] theorem State.countRound_addr (s : State) : (s.countRound).addr = s.addr := rfl
@[simp] theorem State.countRound_cur (s : State) : (s.countRound).cur = s.cur := rfl
@[simp] theorem State.countRound_rem (s : State) : (s.countRound).rem = s.rem := rfl
@[simp] theorem State.countRound_chunk (s : State) : (s.countRound).chunk = s.chunk := rfl
@[simp] theorem State.countRound_idx (s : State) : (s.countRound).idx = s.idx := rfl
@[simp] theorem State.countRound_nacked (s : State) : (s.countRound).nacked = s.nacked := rfl
@[simp] theorem State.countRound_result (s : State) : (s.countRound).result = s.result := rfl
@[simp] theorem State.countRound_busy (s : State) : (s.countRound).busy = s.busy := rfl
@[simp] theorem State.countRound_done (s : State) : (s.countRound).done = s.done := rfl
@[simp] theorem State.countRound_wcnt (s : State) : (s.countRound).wcnt = s.wcnt + 1 := rfl
@[simp] theorem State.countRound_pcnt (s : State) : (s.countRound).pcnt = s.pcnt := rfl
@[simp] theorem State.countRound_buf (s : State) : (s.countRound).buf = s.buf := rfl
@[simp] theorem State.countRound_first (s : State) : (s.countRound).first = none := rfl
@[simp] theorem State.countRound_pw (s : State) : (s.countRound).pw = s.pw := rfl
@[simp] theorem State.countRound_rsp (s : State) : (s.countRound).rsp = s.rsp := rfl
@[simp] theorem State.countRound_env (s : State) : (s.countRound).env = s.env := rfl
@[simp] theorem State.countRound_forced (s : State) : (s.countRound).forced = s.forced := rfl
@[simp] theorem State.countRound_draws (s : State) : (s.countRound).draws = s.draws := rfl
@[simp] theorem State.countRound_host (s : State) : (s.countRound).host = s.host := rfl
@[simp] theorem State.countRound_rdata (s : State) : (s.countRound).rdata = s.rdata := rfl

/-! ### `State.advance` -/

@[simp] theorem State.advance_cfg (s : State) : (s.advance).cfg = s.cfg := rfl
@[simp] theorem State.advance_phase (s : State) : (s.advance).phase = s.phase := rfl
@[simp] theorem State.advance_op (s : State) : (s.advance).op = s.op := rfl
@[simp] theorem State.advance_addr (s : State) : (s.advance).addr = s.addr + s.chunk := rfl
@[simp] theorem State.advance_cur (s : State) : (s.advance).cur = s.cur + s.chunk := rfl
@[simp] theorem State.advance_rem (s : State) : (s.advance).rem = s.rem - s.chunk := rfl
@[simp] theorem State.advance_chunk (s : State) : (s.advance).chunk = s.chunk := rfl
@[simp] theorem State.advance_idx (s : State) : (s.advance).idx = s.idx := rfl
@[simp] theorem State.advance_nacked (s : State) : (s.advance).nacked = s.nacked := rfl
@[simp] theorem State.advance_result (s : State) : (s.advance).result = s.result := rfl
@[simp] theorem State.advance_busy (s : State) : (s.advance).busy = s.busy := rfl
@[simp] theorem State.advance_done (s : State) : (s.advance).done = s.done := rfl
@[simp] theorem State.advance_wcnt (s : State) : (s.advance).wcnt = s.wcnt := rfl
@[simp] theorem State.advance_pcnt (s : State) : (s.advance).pcnt = s.pcnt := rfl
@[simp] theorem State.advance_buf (s : State) : (s.advance).buf = s.buf := rfl
@[simp] theorem State.advance_first (s : State) : (s.advance).first = s.first := rfl
@[simp] theorem State.advance_pw (s : State) : (s.advance).pw = s.pw := rfl
@[simp] theorem State.advance_rsp (s : State) : (s.advance).rsp = s.rsp := rfl
@[simp] theorem State.advance_env (s : State) : (s.advance).env = s.env := rfl
@[simp] theorem State.advance_forced (s : State) : (s.advance).forced = s.forced := rfl
@[simp] theorem State.advance_draws (s : State) : (s.advance).draws = s.draws := rfl
@[simp] theorem State.advance_host (s : State) : (s.advance).host = s.host := rfl
@[simp] theorem State.advance_rdata (s : State) : (s.advance).rdata = s.rdata := rfl

/-! ### `State.pollLate` -/

@[simp] theorem State.pollLate_cfg (s : State) : (s.pollLate).cfg = s.cfg := rfl
@[simp] theorem State.pollLate_phase (s : State) : (s.pollLate).phase = .pStop := rfl
@[simp] theorem State.pollLate_op (s : State) : (s.pollLate).op = s.op := rfl
@[simp] theorem State.pollLate_addr (s : State) : (s.pollLate).addr = s.addr := rfl
@[simp] theorem State.pollLate_cur (s : State) : (s.pollLate).cur = s.cur := rfl
@[simp] theorem State.pollLate_rem (s : State) : (s.pollLate).rem = s.rem := rfl
@[simp] theorem State.pollLate_chunk (s : State) : (s.pollLate).chunk = s.chunk := rfl
@[simp] theorem State.pollLate_idx (s : State) : (s.pollLate).idx = s.idx := rfl
@[simp] theorem State.pollLate_nacked (s : State) : (s.pollLate).nacked = s.nacked := rfl
@[simp] theorem State.pollLate_result (s : State) : (s.pollLate).result = .timeout := rfl
@[simp] theorem State.pollLate_busy (s : State) : (s.pollLate).busy = s.busy := rfl
@[simp] theorem State.pollLate_done (s : State) : (s.pollLate).done = s.done := rfl
@[simp] theorem State.pollLate_wcnt (s : State) : (s.pollLate).wcnt = s.wcnt := rfl
@[simp] theorem State.pollLate_pcnt (s : State) : (s.pollLate).pcnt = s.pcnt := rfl
@[simp] theorem State.pollLate_buf (s : State) : (s.pollLate).buf = s.buf := rfl
@[simp] theorem State.pollLate_first (s : State) : (s.pollLate).first = none := rfl
@[simp] theorem State.pollLate_pw (s : State) : (s.pollLate).pw = s.pw := rfl
@[simp] theorem State.pollLate_rsp (s : State) : (s.pollLate).rsp = s.rsp := rfl
@[simp] theorem State.pollLate_env (s : State) : (s.pollLate).env = s.env := rfl
@[simp] theorem State.pollLate_forced (s : State) : (s.pollLate).forced = s.forced := rfl
@[simp] theorem State.pollLate_draws (s : State) : (s.pollLate).draws = s.draws := rfl
@[simp] theorem State.pollLate_host (s : State) : (s.pollLate).host = s.host := rfl
@[simp] theorem State.pollLate_rdata (s : State) : (s.pollLate).rdata = s.rdata := rfl

/-! ### `State.takeNacked` -/

@[simp] theorem State.takeNacked_cfg (s : State) : (s.takeNacked).cfg = s.cfg := rfl
@[simp] theorem State.takeNacked_phase (s : State) : (s.takeNacked).phase = s.phase := rfl
@[simp] theorem State.takeNacked_op (s : State) : (s.takeNacked).op = s.op := rfl
@[simp] theorem State.takeNacked_addr (s : State) : (s.takeNacked).addr = s.addr := rfl
@[simp] theorem State.takeNacked_cur (s : State) : (s.takeNacked).cur = s.cur := rfl
@[simp] theorem State.takeNacked_rem (s : State) : (s.takeNacked).rem = s.rem := rfl
@[simp] theorem State.takeNacked_chunk (s : State) : (s.takeNacked).chunk = s.chunk := rfl
@[simp] theorem State.takeNacked_idx (s : State) : (s.takeNacked).idx = s.idx := rfl
@[simp] theorem State.takeNacked_nacked (s : State) : (s.takeNacked).nacked = s.flag := rfl
@[simp] theorem State.takeNacked_result (s : State) : (s.takeNacked).result = s.result := rfl
@[simp] theorem State.takeNacked_busy (s : State) : (s.takeNacked).busy = s.busy := rfl
@[simp] theorem State.takeNacked_done (s : State) : (s.takeNacked).done = s.done := rfl
@[simp] theorem State.takeNacked_wcnt (s : State) : (s.takeNacked).wcnt = s.wcnt := rfl
@[simp] theorem State.takeNacked_pcnt (s : State) : (s.takeNacked).pcnt = s.pcnt := rfl
@[simp] theorem State.takeNacked_buf (s : State) : (s.takeNacked).buf = s.buf := rfl
@[simp] theorem State.takeNacked_first (s : State) : (s.takeNacked).first = s.first := rfl
@[simp] theorem State.takeNacked_pw (s : State) : (s.takeNacked).pw = s.pw := rfl
@[simp] theorem State.takeNacked_rsp (s : State) : (s.takeNacked).rsp = s.rsp := rfl
@[simp] theorem State.takeNacked_env (s : State) : (s.takeNacked).env = s.env := rfl
@[simp] theorem State.takeNacked_forced (s : State) : (s.takeNacked).forced = s.forced := rfl
@[simp] theorem State.takeNacked_draws (s : State) : (s.takeNacked).draws = s.draws := rfl
@[simp] theorem State.takeNacked_host (s : State) : (s.takeNacked).host = s.host := rfl
@[simp] theorem State.takeNacked_rdata (s : State) : (s.takeNacked).rdata = s.rdata := rfl

/-! ### `State.serve` -/

@[simp] theorem State.serve_cfg (i : Instr) (s : State) : (s.serve i).cfg = s.cfg := rfl
@[simp] theorem State.serve_phase (i : Instr) (s : State) : (s.serve i).phase = s.phase := rfl
@[simp] theorem State.serve_op (i : Instr) (s : State) : (s.serve i).op = s.op := rfl
@[simp] theorem State.serve_addr (i : Instr) (s : State) : (s.serve i).addr = s.addr := rfl
@[simp] theorem State.serve_cur (i : Instr) (s : State) : (s.serve i).cur = s.cur := rfl
@[simp] theorem State.serve_rem (i : Instr) (s : State) : (s.serve i).rem = s.rem := rfl
@[simp] theorem State.serve_chunk (i : Instr) (s : State) : (s.serve i).chunk = s.chunk := rfl
@[simp] theorem State.serve_idx (i : Instr) (s : State) : (s.serve i).idx = s.idx := rfl
@[simp] theorem State.serve_nacked (i : Instr) (s : State) : (s.serve i).nacked = s.nacked := rfl
@[simp] theorem State.serve_result (i : Instr) (s : State) : (s.serve i).result = s.result := rfl
@[simp] theorem State.serve_busy (i : Instr) (s : State) : (s.serve i).busy = s.busy := rfl
@[simp] theorem State.serve_done (i : Instr) (s : State) : (s.serve i).done = s.done := rfl
@[simp] theorem State.serve_wcnt (i : Instr) (s : State) : (s.serve i).wcnt = s.wcnt := rfl
@[simp] theorem State.serve_pcnt (i : Instr) (s : State) : (s.serve i).pcnt = s.pcnt := rfl
@[simp] theorem State.serve_buf (i : Instr) (s : State) : (s.serve i).buf = s.buf := rfl
@[simp] theorem State.serve_first (i : Instr) (s : State) : (s.serve i).first = s.first := rfl
@[simp] theorem State.serve_pw (i : Instr) (s : State) : (s.serve i).pw = i.request := rfl
@[simp] theorem State.serve_rsp (i : Instr) (s : State) : (s.serve i).rsp = s.reply i := rfl
@[simp] theorem State.serve_env (i : Instr) (s : State) : (s.serve i).env = s.envAfter i := rfl
@[simp] theorem State.serve_forced (i : Instr) (s : State) : (s.serve i).forced = if givesAnswer i then s.forced.tail else s.forced := rfl
@[simp] theorem State.serve_draws (i : Instr) (s : State) : (s.serve i).draws = s.draws + 1 := rfl
@[simp] theorem State.serve_host (i : Instr) (s : State) : (s.serve i).host = s.host := rfl
@[simp] theorem State.serve_rdata (i : Instr) (s : State) : (s.serve i).rdata = s.rdata := rfl

end Sys2Proof.Machine
end

