-- ==== Sys2Proof/Laws/Memory.lean ====
section
/-! SUPPORT. The memories: a write is read back, leaves every other address alone, and keeps the canonical form. -/

namespace Sys2Proof.Machine

/-! ### Listed bytes -/

theorem Memory.above_iff {a : Nat} {m : List Host.Cell} : Memory.above a m = true ↔ ∀ c ∈ m, a < c.1 := by
  simp [Memory.above]

theorem Memory.listed_eq_none_of_above {a : Nat} :
    ∀ {m : List Host.Cell}, Memory.above a m = true → Memory.listed m a = none
  | [], _ => rfl
  | (k, v) :: m, h => by
    rw [Memory.above_iff] at h
    have hk : a < k := h _ (List.mem_cons_self ..)
    have ht : Memory.above a m = true := Memory.above_iff.2 fun c hc => h c (List.mem_cons_of_mem _ hc)
    simp only [Memory.listed, if_neg (Nat.ne_of_lt hk)]
    exact Memory.listed_eq_none_of_above ht

theorem Memory.listed_put_same (a : Nat) (v : Byte) : ∀ m, Memory.listed (Memory.put m a v) a = some v
  | [] => by simp [Memory.put, Memory.listed]
  | (k, w) :: m => by
    unfold Memory.put
    split
    · simp [Memory.listed]
    · split
      · simp [Memory.listed]
      · next h => simpa only [Memory.listed, if_neg h] using Memory.listed_put_same a v m

theorem Memory.listed_put_other {a b : Nat} (h : b ≠ a) (v : Byte) :
    ∀ m, Memory.listed (Memory.put m a v) b = Memory.listed m b
  | [] => by simp [Memory.put, Memory.listed, h]
  | (k, w) :: m => by
    unfold Memory.put
    split
    · simp [Memory.listed, h]
    · split
      · next hk => subst hk; simp [Memory.listed, h]
      · simp only [Memory.listed, Memory.listed_put_other h v m]

theorem Memory.listed_drop_other {a b : Nat} (h : b ≠ a) :
    ∀ m, Memory.listed (Memory.drop m a) b = Memory.listed m b
  | [] => rfl
  | (k, w) :: m => by
    unfold Memory.drop
    split
    · next hk => subst hk; simp [Memory.listed, h]
    · simp only [Memory.listed, Memory.listed_drop_other h m]

theorem Memory.listed_drop_same {a : Nat} :
    ∀ {m : List Host.Cell}, Memory.rising m = true → Memory.listed (Memory.drop m a) a = none
  | [], _ => rfl
  | (k, w) :: m, h => by
    simp only [Memory.rising, Bool.and_eq_true] at h
    unfold Memory.drop
    split
    · next hk => subst hk; exact Memory.listed_eq_none_of_above h.1
    · next hk => simpa only [Memory.listed, if_neg hk] using Memory.listed_drop_same h.2

/-! ### Cells of the result -/

theorem Memory.mem_put {a : Nat} {v : Byte} {c : Host.Cell} :
    ∀ {m : List Host.Cell}, c ∈ Memory.put m a v → c = (a, v) ∨ c ∈ m
  | [], h => by simpa [Memory.put] using h
  | (k, w) :: m, h => by
    unfold Memory.put at h
    split at h
    · simpa using h
    · split at h
      · rcases List.mem_cons.1 h with rfl | h
        · exact .inl rfl
        · exact .inr (List.mem_cons_of_mem _ h)
      · rcases List.mem_cons.1 h with rfl | h
        · exact .inr (List.mem_cons_self ..)
        · exact (Memory.mem_put h).imp_right (List.mem_cons_of_mem _)

theorem Memory.mem_drop {a : Nat} {c : Host.Cell} :
    ∀ {m : List Host.Cell}, c ∈ Memory.drop m a → c ∈ m
  | [], h => h
  | (k, w) :: m, h => by
    unfold Memory.drop at h
    split at h
    · exact List.mem_cons_of_mem _ h
    · rcases List.mem_cons.1 h with rfl | h
      · exact List.mem_cons_self ..
      · exact List.mem_cons_of_mem _ (Memory.mem_drop h)

theorem Memory.rising_put (a : Nat) (v : Byte) :
    ∀ {m : List Host.Cell}, Memory.rising m = true → Memory.rising (Memory.put m a v) = true
  | [], _ => rfl
  | (k, w) :: m, h => by
    have h' := h
    simp only [Memory.rising, Bool.and_eq_true] at h
    unfold Memory.put
    split
    · next hk =>
      simp only [Memory.rising, Bool.and_eq_true]
      refine ⟨Memory.above_iff.2 fun c hc => ?_, h⟩
      rcases List.mem_cons.1 hc with rfl | hc
      · exact hk
      · exact Nat.lt_trans hk (Memory.above_iff.1 h.1 c hc)
    · split
      · next hk => subst hk; simpa only [Memory.rising, Bool.and_eq_true] using h
      · next h1 h2 =>
        simp only [Memory.rising, Bool.and_eq_true]
        refine ⟨Memory.above_iff.2 fun c hc => ?_, Memory.rising_put a v h.2⟩
        rcases Memory.mem_put hc with rfl | hc
        · exact Nat.lt_of_le_of_ne (Nat.not_lt.1 h1) (Ne.symm h2)
        · exact Memory.above_iff.1 h.1 c hc

theorem Memory.rising_drop (a : Nat) :
    ∀ {m : List Host.Cell}, Memory.rising m = true → Memory.rising (Memory.drop m a) = true
  | [], _ => rfl
  | (k, w) :: m, h => by
    simp only [Memory.rising, Bool.and_eq_true] at h
    unfold Memory.drop
    split
    · exact h.2
    · simp only [Memory.rising, Bool.and_eq_true]
      exact ⟨Memory.above_iff.2 fun c hc => Memory.above_iff.1 h.1 c (Memory.mem_drop hc), Memory.rising_drop a h.2⟩

/-! ### The three laws of a write -/

theorem Memory.wf_iff {blank : Option Byte} {m : List Host.Cell} :
    Memory.wf blank m = true ↔ Memory.rising m = true ∧ ∀ c ∈ m, blank ≠ some c.2 := by
  simp [Memory.wf]

/-- A write keeps the canonical form. -/
theorem Memory.wf_write {blank : Option Byte} {m : List Host.Cell} (h : Memory.wf blank m = true) (a : Nat) (v : Byte) :
    Memory.wf blank (Memory.write blank m a v) = true := by
  rw [Memory.wf_iff] at h ⊢
  unfold Memory.write
  split
  · exact ⟨Memory.rising_drop a h.1, fun c hc => h.2 c (Memory.mem_drop hc)⟩
  · next hb =>
    refine ⟨Memory.rising_put a v h.1, fun c hc => ?_⟩
    rcases Memory.mem_put hc with rfl | hc
    · exact hb
    · exact h.2 c hc

/-- A list of writes leaves the canonical form. -/
theorem Memory.wf_canonical (blank : Option Byte) (l : List Host.Cell) :
    Memory.wf blank (Memory.canonical blank l) = true := by
  have fold : ∀ (l m : List Host.Cell), Memory.wf blank m = true →
      Memory.wf blank (l.foldl (fun m c => Memory.write blank m c.1 c.2) m) = true := by
    intro l
    induction l with
    | nil => exact fun _ h => h
    | cons c l ih => exact fun m h => ih _ (Memory.wf_write h c.1 c.2)
  exact fold l [] rfl

/-- A write is read back. -/
theorem Memory.read_write_same {blank : Option Byte} {m : List Host.Cell} (h : Memory.wf blank m = true) (a : Nat)
    (v : Byte) : Memory.read blank (Memory.write blank m a v) a = some v := by
  rw [Memory.wf_iff] at h
  unfold Memory.write Memory.read
  split
  · next hb => rw [Memory.listed_drop_same h.1, hb, Option.none_or]
  · rw [Memory.listed_put_same, Option.some_or]

/-- A write leaves every other address alone. -/
theorem Memory.read_write_other {a b : Nat} (hab : b ≠ a) (blank : Option Byte) (m : List Host.Cell) (v : Byte) :
    Memory.read blank (Memory.write blank m a v) b = Memory.read blank m b := by
  unfold Memory.write Memory.read
  split
  · rw [Memory.listed_drop_other hab]
  · rw [Memory.listed_put_other hab]

/-- A write lists no address but the old ones and its own. -/
theorem Memory.mem_write {blank : Option Byte} {m : List Host.Cell} {a : Nat} {v : Byte} {c : Host.Cell}
    (h : c ∈ Memory.write blank m a v) : c.1 = a ∨ c ∈ m := by
  unfold Memory.write at h
  split at h
  · exact .inr (Memory.mem_drop h)
  · exact (Memory.mem_put h).imp_left fun e => by rw [e]

/-! ### The buffer and the device -/

/-- All that `BufWrite` can do. -/
theorem State.bufWrite_cases {s t : State} {i : Nat} {v : Byte} (h : s.bufWrite i v = .next t) :
    i < s.cfg.bufSize ∧ t = { s with buf := Memory.write bufBlank s.buf i v } := by
  unfold State.bufWrite at h
  split at h
  · next hi => exact ⟨hi, (Host.Outcome.next.inj h).symm⟩
  · cases h

/-- All that `BufRead` can do. -/
theorem State.bufRead_cases {s : State} {i : Nat} {v : Byte} (h : s.bufRead i = .next v) :
    i < s.cfg.bufSize ∧ Memory.read bufBlank s.buf i = some v := by
  unfold State.bufRead at h
  split at h
  · next hi =>
    refine ⟨hi, ?_⟩
    split at h
    · next hv => rw [hv, Host.Outcome.next.inj h]
    · cases h
  · cases h

theorem Env.wf_memWrite {e : Env} (h : Memory.wf (some devBlank) e.mem = true) (a : Nat) (v : Byte) :
    Memory.wf (some devBlank) (e.memWrite a v).mem = true :=
  Memory.wf_write h a v

theorem Env.memRead_memWrite_other {a b : Nat} (h : b ≠ a) (e : Env) (v : Byte) :
    (e.memWrite a v).memRead b = e.memRead b := by
  simp only [Env.memRead, Env.memWrite, Memory.read_write_other h]

theorem Env.memRead_memWrite_same {e : Env} (h : Memory.wf (some devBlank) e.mem = true) (a : Nat) (v : Byte) :
    (e.memWrite a v).memRead a = v := by
  simp only [Env.memRead, Env.memWrite, Memory.read_write_same h, Option.getD_some]

/-- Committing a latch keeps the canonical form (R76). -/
theorem Env.wf_commit : ∀ (l : List Host.Cell) {e : Env}, Memory.wf (some devBlank) e.mem = true →
    Memory.wf (some devBlank) (e.commit l).mem = true
  | [], _, h => h
  | (a, b) :: l, _, h => Env.wf_commit l (Env.wf_memWrite h a b)

/-- Committing a latch changes no byte whose address it does not hold (R76). -/
theorem Env.memRead_commit_other {a : Nat} :
    ∀ (l : List Host.Cell) (e : Env), (∀ c ∈ l, c.1 ≠ a) → (e.commit l).memRead a = e.memRead a
  | [], _, _ => rfl
  | (k, b) :: l, e, h => by
    rw [Env.commit, Env.memRead_commit_other l _ fun c hc => h c (List.mem_cons_of_mem _ hc)]
    exact Env.memRead_memWrite_other (Ne.symm (h _ (List.mem_cons_self ..))) e b

end Sys2Proof.Machine
end

