-- ==== Sys2Proof/Laws/Ops.lean ====
section
/-! SUPPORT. What each shared operation can do, said once: the bounds, the wait, the loops, a primitive call, the block's
turn. -/

namespace Sys2Proof.Machine

/-! ### Bounds -/

theorem reached_iff {l : Limit} {n : Nat} : reached l n = true ↔ ∃ k, l.value = some k ∧ k ≤ n := by
  cases l <;> simp [reached, Limit.value]

theorem not_reached_iff {l : Limit} {n : Nat} : reached l n = false ↔ ∀ k, l.value = some k → n < k := by
  cases l <;> simp [reached, Limit.value]

/-- With a round due, the round just made was the last exactly when WCNT comes up to the limit (R121). -/
theorem State.roundDue.reached_iff {s : State} (h : s.roundDue) :
    reached s.cfg.waitLimit (s.wcnt + 1) = true ↔ s.cfg.waitLimit.value = some (s.wcnt + 1) := by
  rw [Machine.reached_iff]
  constructor
  · rintro ⟨k, hk, hle⟩
    rw [hk, Nat.le_antisymm hle (h k hk)]
  · exact fun e => ⟨_, e, Nat.le_refl _⟩

/-! ### The wait and the loops, case by case -/

/-- All that the end of a sample round can do (R121). -/
theorem State.endRound_cases (holds : Bool) (sat late : State → State) (s : State) :
    (holds = true ∧ s.endRound holds sat late = sat s.countRound) ∨
    (holds = false ∧ reached s.cfg.waitLimit (s.wcnt + 1) = true ∧ s.endRound holds sat late = late s.countRound) ∨
    (holds = false ∧ reached s.cfg.waitLimit (s.wcnt + 1) = false ∧ s.endRound holds sat late = s.countRound) := by
  cases holds
  · cases h : reached s.cfg.waitLimit (s.wcnt + 1) <;> simp [State.endRound, h]
  · simp [State.endRound]

/-- All that the top of a block loop can do (R181, R191). -/
theorem State.loopTop_cases (s : State) :
    (s.rem = 0 ∧ s.loopTop = s.complete .ok) ∨
    (s.rem ≠ 0 ∧ s.loopTop = { s with chunk := s.nextChunk, phase := .u1Start, first := none }) := by
  by_cases h : s.rem = 0
  · exact .inl ⟨h, if_pos h⟩
  · exact .inr ⟨h, if_neg h⟩

/-- All that the top of the poll loop can do (R200). -/
theorem State.pollTop_cases (s : State) :
    (reached s.cfg.pollLimit s.pcnt = true ∧ s.pollTop = s.complete .timeout) ∨
    (reached s.cfg.pollLimit s.pcnt = false ∧
      s.pollTop = { s with pcnt := s.pcnt + 1, phase := .pStart, first := none }) := by
  cases h : reached s.cfg.pollLimit s.pcnt <;> simp [State.pollTop, h]

/-- The bound of a poll is at least one, so a poll always makes its first attempt (R12, R200). -/
theorem State.pollStart_eq (s : State) : s.pollStart = { s with pcnt := 1, phase := .pStart, first := none } := by
  have h : reached s.cfg.pollLimit 0 = false := by cases s.cfg.pollLimit <;> simp [reached]
  simp [State.pollStart, State.pollTop, h]

/-- All that the return of a unit can do (R181, R184, R191, R194). -/
theorem State.unitReturn_cases (s : State) :
    (s.result = .ok ∧ s.isRead = true ∧ s.unitReturn = s.advance.loopTop) ∨
    (s.result = .ok ∧ s.isRead = false ∧ s.unitReturn = s.pollStart) ∨
    (s.result ≠ .ok ∧ s.unitReturn = s.complete s.result) := by
  by_cases h : s.result = .ok
  · cases hr : s.isRead <;> simp [State.unitReturn, h, hr]
  · simp [State.unitReturn, h]

/-- All that the decision of a poll attempt can do (R204, R205). -/
theorem State.pollDecide_cases (s : State) :
    (s.result = .ok ∧ s.nacked = true ∧ s.pollDecide = s.goto .pClear) ∨
    (s.result = .ok ∧ s.nacked = false ∧ s.pollDecide = s.advance.loopTop) ∨
    (s.result ≠ .ok ∧ s.pollDecide = s.complete .timeout) := by
  by_cases h : s.result = .ok
  · cases hr : s.nacked <;> simp [State.pollDecide, h, hr]
  · simp [State.pollDecide, h]

/-! ### A primitive call -/

theorem State.issues_iff {s : State} {i : Instr} : s.issues i = true ↔ s.nextCall = .next (some i) := by
  unfold State.issues
  split <;> simp_all

/-- All that a primitive call can do when it answers a next state. -/
theorem primitive_cases {i : Instr} {block : State → Host.Outcome State Fault Refusal} {s t : State}
    (h : primitive i block s = .next t) :
    (s.nextCall = .next (some i) ∧ block (s.serve i) = .next t) ∨
    (s.nextCall ≠ .next (some i) ∧ s.busy = false ∧ t = s.serve i) := by
  unfold primitive at h
  split at h
  · next hi => exact .inl ⟨State.issues_iff.1 hi, h⟩
  · next hi =>
    refine .inr ⟨fun hc => hi (State.issues_iff.2 hc), ?_⟩
    split at h
    · cases h
    · next hb => exact ⟨by simpa using hb, (Host.Outcome.next.inj h).symm⟩

/-- The block's own call runs its continuation. -/
theorem primitive_of_issues {i : Instr} {s : State} (block : State → Host.Outcome State Fault Refusal)
    (h : s.nextCall = .next (some i)) : primitive i block s = block (s.serve i) := by
  rw [primitive, if_pos (State.issues_iff.2 h)]

/-- A call by someone else while no command runs is served and leaves the block as it was. -/
theorem primitive_outside {i : Instr} {s : State} (block : State → Host.Outcome State Fault Refusal)
    (h : s.nextCall ≠ .next (some i)) (hb : s.busy = false) : primitive i block s = .next (s.serve i) := by
  rw [primitive, if_neg (fun hi => h (State.issues_iff.1 hi)), if_neg (by simp [hb])]

/-! ### The environment -/

/-- A call keeps the kind of environment. -/
theorem State.serve_kind (i : Instr) (s : State) : (s.serve i).env.kind = s.env.kind := by
  simp only [State.serve_env, State.envAfter]
  cases hk : s.env.kind
  · cases i <;> simp [Env.drawn, Env.freed, Env.setAck, Env.clearNack, hk]
  · have commit_kind : ∀ (l : List Host.Cell) (e : Env), (e.commit l).kind = e.kind := by
      intro l
      induction l with
      | nil => intro e; rfl
      | cons c l ih => intro e; rw [Env.commit, ih]; rfl
    cases i with
    | busSendAddress a7 intent =>
      cases intent <;> simp only [Env.act, Env.sendAddress, Env.loadByte] <;> repeat' split
      all_goals exact hk
    | busSendByte b => simp only [Env.act, Env.sendByte]; split <;> exact hk
    | busRecvByte => simp only [Env.act, Env.recvByte, Env.loadByte]; repeat' split
                     all_goals exact hk
    | busStop => simp only [Env.act, Env.stop]; split <;> simp [commit_kind, hk]
    | _ => simp [Env.act, Env.start, Env.setAck, Env.clearNack, hk]

/-- In the reference environment only `bus_stop` writes the device's memory (R71 to R77). -/
theorem Env.act_mem (c : Config) {i : Instr} (h : i ≠ .busStop) (e : Env) : (e.act c i).mem = e.mem := by
  cases i with
  | busSendAddress a7 intent =>
    cases intent <;> simp only [Env.act, Env.sendAddress, Env.loadByte] <;> repeat' split
    all_goals rfl
  | busSendByte b => simp only [Env.act, Env.sendByte]; split <;> rfl
  | busRecvByte => simp only [Env.act, Env.recvByte, Env.loadByte]; repeat' split
                   all_goals rfl
  | busStop => exact absurd rfl h
  | _ => rfl

/-- In the reference environment a call other than `bus_stop` leaves every byte of the device. -/
theorem State.serve_memRead {s : State} {i : Instr} (hk : s.env.kind = .reference) (h : i ≠ .busStop) (a : Nat) :
    (s.serve i).env.memRead a = s.env.memRead a := by
  simp only [State.serve_env, State.envAfter, hk, Env.memRead, Env.act_mem _ h]

/-- With the oracle the device's memory after a call is a free value, whatever it was before (R78, U13). -/
theorem State.serve_mem_oracle {s : State} (hk : s.env.kind = .oracle) (i : Instr) :
    (s.serve i).env.mem = Memory.canonical (some devBlank) (Config.freeEnv s.draws).writes := by
  simp only [State.serve_env, State.envAfter, hk]
  cases i <;> rfl

/-- A call keeps the canonical form of the device's memory, in either kind of environment. -/
theorem State.serve_wf {s : State} (h : Memory.wf (some devBlank) s.env.mem = true) (i : Instr) :
    Memory.wf (some devBlank) (s.serve i).env.mem = true := by
  cases hk : s.env.kind
  · rw [State.serve_mem_oracle hk]
    exact Memory.wf_canonical _ _
  · simp only [State.serve_env, State.envAfter, hk]
    by_cases hi : i = .busStop
    · subst hi
      simp only [Env.act, Env.stop]
      split
      · exact Env.wf_commit _ h
      · exact h
    · rw [Env.act_mem _ hi]
      exact h

/-- Only `bus_set_ack` writes ACK_EN (R29). -/
theorem State.serve_ackEn {i : Instr} (h : ∀ en, i ≠ .busSetAck en) (s : State) :
    (s.serve i).env.ackEn = s.env.ackEn := by
  have commit_ackEn : ∀ (l : List Host.Cell) (e : Env), (e.commit l).ackEn = e.ackEn := by
    intro l
    induction l with
    | nil => intro e; rfl
    | cons c l ih => intro e; rw [Env.commit, ih]; rfl
  simp only [State.serve_env, State.envAfter]
  split
  · cases i <;> first | rfl | exact absurd rfl (h _)
  · cases i with
    | busSendAddress a7 intent =>
      cases intent <;> simp only [Env.act, Env.sendAddress, Env.loadByte] <;> repeat' split
      all_goals rfl
    | busSendByte b => simp only [Env.act, Env.sendByte]; split <;> rfl
    | busRecvByte => simp only [Env.act, Env.recvByte, Env.loadByte]; repeat' split
                     all_goals rfl
    | busStop => simp only [Env.act, Env.stop]; split <;> simp [commit_ackEn]
    | busSetAck en => exact absurd rfl (h en)
    | _ => rfl

/-- `bus_set_ack(en)` writes ACK_EN (R107). -/
theorem State.serve_setAck (en : Bool) (s : State) : (s.serve (.busSetAck en)).env.ackEn = en := by
  simp only [State.serve_env, State.envAfter]
  split <;> rfl

/-! ### The block's turn -/

/-- The decoder reads the request word of a primitive back. -/
theorem decodePw_request {i : Instr} {w : ReqWord} (h : i.request = some w) : decodePw w = .ok i := by
  have intents : ∀ (a : BitVec 7) (b : BitVec 1), decodePw (requestWord 0x2 (a ++ b)) =
      .ok (.busSendAddress a (.ofBit (b.getLsbD 0))) := by decide
  have bytes : ∀ b : Byte, decodePw (requestWord 0x3 b) = .ok (.busSendByte b) := by decide
  cases i with
  | writeByte a l => cases h
  | writeBlock a l => cases h
  | readByte a l => cases h
  | readBlock a l => cases h
  | busSendAddress a intent =>
    cases h
    rw [intents]
    cases intent <;> rfl
  | busSendByte b => cases h; exact bytes b
  | busSetAck en => cases h; cases en <;> decide
  | _ => cases h; decide

/-- What the block's next call can be, phase by phase: never a host command. -/
theorem State.nextCall_request {s : State} {i : Instr} (h : s.nextCall = .next (some i)) :
    ∃ w, i.request = some w := by
  have due : ∀ q1 q2 : Instr, (∃ w, q1.request = some w) → (∃ w, q2.request = some w) →
      ∃ w, (s.due q1 q2).request = some w := by
    intro q1 q2 h1 h2; unfold State.due; split <;> assumption
  unfold State.nextCall at h
  split at h <;> first
    | (cases h; exact ⟨_, rfl⟩)
    | (cases h; exact due _ _ ⟨_, rfl⟩ ⟨_, rfl⟩)
    | cases h
    | skip
  · split
    · exact ⟨_, rfl⟩
    · exact due _ _ ⟨_, rfl⟩ ⟨_, rfl⟩
  · unfold withOperand at h; split at h <;> first | (cases h; exact ⟨_, rfl⟩) | cases h

/-- The block's turn is the meaning of its next call, whatever it answers. -/
theorem blockTurn_of_call {s : State} {i : Instr} (h : s.nextCall = .next (some i)) : blockTurn s = exec i s := by
  obtain ⟨w, hw⟩ := State.nextCall_request h
  simp only [blockTurn, State.nextRequest, h, withOperand, Option.bind_some, hw, runRequest, decodePw_request hw]

/-- All that the block's turn can do when it answers a next state. -/
theorem blockTurn_cases {s t : State} (h : blockTurn s = .next t) :
    (s.phase = .idle ∧ t = s) ∨ ∃ i, s.nextCall = .next (some i) ∧ exec i s = .next t := by
  cases hc : s.nextCall with
  | next c =>
    cases c with
    | none =>
      refine .inl ⟨?_, ?_⟩
      · unfold State.nextCall at hc
        split at hc <;> first | assumption | cases hc | skip
        unfold withOperand at hc; split at hc <;> cases hc
      · simp only [blockTurn, State.nextRequest, hc, withOperand, Option.bind_none] at h
        exact (Host.Outcome.next.inj h).symm
    | some i => exact .inr ⟨i, rfl, by rw [← blockTurn_of_call hc]; exact h⟩
  | fault r => simp only [blockTurn, State.nextRequest, hc, withOperand] at h; cases h
  | refused r => simp only [blockTurn, State.nextRequest, hc, withOperand] at h; cases h

end Sys2Proof.Machine
end

