-- ==== Sys2Proof/Laws/PerInstr.lean ====
section
/-! SUPPORT. For every instruction: its encoded word lies in its row of spec/opcode_table.json (R82, R86), with every operand
at every value. -/

namespace Sys2Proof.Laws.TableRow

open Sys2Proof

/-- The row of the table: its `match` and its `mask`, as numbers. -/
def row : Instr → Nat × Nat
  | .writeByte _ _ => (0x000000000, 0x300000000)
  | .writeBlock _ _ => (0x100000000, 0x300000000)
  | .readByte _ _ => (0x200000000, 0x300000000)
  | .readBlock _ _ => (0x300000000, 0x300000000)
  | .busStart => (0x000, 0xFFF)
  | .busStop => (0x100, 0xFFF)
  | .busSendAddress _ _ => (0x200, 0xF00)
  | .busSendByte _ => (0x300, 0xF00)
  | .busRecvByte => (0x400, 0xFFF)
  | .busSetAck _ => (0x500, 0xFFE)
  | .busClearNack => (0x600, 0xFFF)
  | .qStSent => (0x800, 0xFFF)
  | .qAdDone => (0x900, 0xFFF)
  | .qAdNack => (0xA00, 0xFFF)
  | .qTxEmpty => (0xB00, 0xFFF)
  | .qRxFull => (0xC00, 0xFFF)
  | .qCtBusy => (0xD00, 0xFFF)
  | .qCtMaster => (0xE00, 0xFFF)

/-- A word lies in a row: its format is the row's, and its bits under the mask are the match. -/
def lies (isCommand : Bool) (r : Nat × Nat) : CodeWord → Prop
  | .cw w => isCommand = true ∧ w &&& BitVec.ofNat 34 r.2 = BitVec.ofNat 34 r.1
  | .pw w => isCommand = false ∧ w &&& BitVec.ofNat 12 r.2 = BitVec.ofNat 12 r.1

/-- The encoded word of `i` lies in the row of `i`. -/
def Statement (i : Instr) : Prop := lies i.isCommand (row i) (encode i)

/-- The operation bits of a command word are its own two bits, whatever the operands (R81, R82). -/
theorem commandWord_op (rd blk : BitVec 1) (addr len : Half) :
    commandWord rd blk addr len &&& 0x300000000 = rd ++ blk ++ (0 : BitVec 32) := by
  ext i hi
  simp only [commandWord, BitVec.getElem_and, BitVec.getElem_append]
  have mask : (0x300000000 : BitVec 34)[i] = decide (32 ≤ i) := by
    revert i; decide
  rw [mask]
  by_cases h : 32 ≤ i
  · simp [h, show ¬ i < 16 by omega, show ¬ i - 16 < 16 by omega, show ¬ i < 32 by omega, show i - 16 - 16 = i - 32 by omega]
  · simp [h, show i < 32 by omega]

theorem writeByte (addr len : Half) : Statement (.writeByte addr len) :=
  ⟨rfl, (commandWord_op 0 0 addr len).trans (show _ = (0x000000000 : CmdWord) by decide)⟩

theorem writeBlock (addr len : Half) : Statement (.writeBlock addr len) :=
  ⟨rfl, (commandWord_op 0 1 addr len).trans (show _ = (0x100000000 : CmdWord) by decide)⟩

theorem readByte (addr len : Half) : Statement (.readByte addr len) :=
  ⟨rfl, (commandWord_op 1 0 addr len).trans (show _ = (0x200000000 : CmdWord) by decide)⟩

theorem readBlock (addr len : Half) : Statement (.readBlock addr len) :=
  ⟨rfl, (commandWord_op 1 1 addr len).trans (show _ = (0x300000000 : CmdWord) by decide)⟩

theorem busStart : Statement .busStart := ⟨rfl, by decide⟩

theorem busStop : Statement .busStop := ⟨rfl, by decide⟩

theorem busSendAddress (addr7 : BitVec 7) (intent : Intent) : Statement (.busSendAddress addr7 intent) := by
  have h : ∀ (a : BitVec 7) (b : BitVec 1), requestWord 0x2 (a ++ b) &&& 0xF00 = 0x200 := by decide
  exact ⟨rfl, h addr7 intent.bit⟩

theorem busSendByte (b : Byte) : Statement (.busSendByte b) := by
  have h : ∀ b : Byte, requestWord 0x3 b &&& 0xF00 = 0x300 := by decide
  exact ⟨rfl, h b⟩

theorem busRecvByte : Statement .busRecvByte := ⟨rfl, by decide⟩

theorem busSetAck (enabled : Bool) : Statement (.busSetAck enabled) := by
  cases enabled <;> exact ⟨rfl, by decide⟩

theorem busClearNack : Statement .busClearNack := ⟨rfl, by decide⟩

theorem qStSent : Statement .qStSent := ⟨rfl, by decide⟩

theorem qAdDone : Statement .qAdDone := ⟨rfl, by decide⟩

theorem qAdNack : Statement .qAdNack := ⟨rfl, by decide⟩

theorem qTxEmpty : Statement .qTxEmpty := ⟨rfl, by decide⟩

theorem qRxFull : Statement .qRxFull := ⟨rfl, by decide⟩

theorem qCtBusy : Statement .qCtBusy := ⟨rfl, by decide⟩

theorem qCtMaster : Statement .qCtMaster := ⟨rfl, by decide⟩

end Sys2Proof.Laws.TableRow
end

