-- ==== Sys2Proof/Tests/Slice0.lean ====
section
/-! SUPPORT. Our own checks: ill-formed terms refused, words of the spec decoded, one-step results taken from the vectors of
95_test_vectors.md, and for every statement a witness that meets its hypotheses. -/

namespace Sys2Proof.Tests

open Sys2Proof.Machine

/-! ### Well-formedness: each check refuses a term that only it refuses -/

theorem test_legal_sample : Config.sample.legal = true := by decide

theorem test_capacity_not_zero : { Config.sample with capacity := 0 }.legal = false := by decide

theorem test_capacity_at_most_65536 : { Config.sample with capacity := 65537 }.legal = false := by decide

theorem test_buffer_not_empty : { Config.sample with bufSize := 0 }.legal = false := by decide

theorem test_buffer_at_most_65536 : { Config.sample with bufSize := 65537 }.legal = false := by decide

/-- R262 at its boundary: CAPACITY is 1024. -/
theorem test_range_end : (Instr.readBlock 1020 4).wellFormed Config.sample = true := by decide

theorem test_range_beyond : (Instr.readBlock 1020 5).wellFormed Config.sample = false := by decide

/-- R84: a byte command has length 1 whatever its `len` field. -/
theorem test_range_of_byte_command : (Instr.writeByte 1023 0xFFFF).wellFormed Config.sample = true := by decide

/-- R263. -/
theorem test_length_beyond_buffer :
    (Instr.writeBlock 0 3).wellFormed { Config.sample with bufSize := 2 } = false := by decide

/-- R104: the address sent is always DEV_ADDR. -/
theorem test_other_device : (Instr.busSendAddress 0x51 .write).wellFormed Config.sample = false := by decide

theorem test_own_device : (Instr.busSendAddress 0x50 .write).wellFormed Config.sample = true := by decide

/-! ### Decoding: words written out from R81, R82, R85, R86, R87 and the legend of 95_test_vectors.md -/

theorem test_decode_write_byte : decodeTableWord 40 0x0_0010_FFFF = some (.writeByte 0x0010 0xFFFF) := by decide

theorem test_decode_write_block : decodeTableWord 40 0x1_000A_0014 = some (.writeBlock 10 20) := by decide

theorem test_decode_read_byte : decodeTableWord 34 0x2_0010_0000 = some (.readByte 0x0010 0) := by decide

theorem test_decode_read_block : decodeTableWord 40 0x3_002E_0000 = some (.readBlock 0x2E 0) := by decide

theorem test_decode_bus_start : decodeTableWord 16 0x000 = some .busStart := by decide

theorem test_decode_bus_stop : decodeTableWord 16 0x100 = some .busStop := by decide

theorem test_decode_bus_send_address :
    decodeTableWord 16 0x2A0 = some (.busSendAddress 0x50 .write) ∧
    decodeTableWord 16 0x2FF = some (.busSendAddress 0x7F .read) := by decide

theorem test_decode_bus_send_byte : decodeTableWord 16 0x3FF = some (.busSendByte 0xFF) := by decide

theorem test_decode_bus_recv_byte : decodeTableWord 16 0x400 = some .busRecvByte := by decide

theorem test_decode_bus_set_ack :
    decodeTableWord 16 0x501 = some (.busSetAck true) ∧ decodeTableWord 16 0x500 = some (.busSetAck false) := by decide

theorem test_decode_bus_clear_nack : decodeTableWord 16 0x600 = some .busClearNack := by decide

theorem test_decode_q_st_sent : decodeTableWord 16 0x800 = some .qStSent := by decide

theorem test_decode_q_ad_done : decodeTableWord 16 0x900 = some .qAdDone := by decide

theorem test_decode_q_ad_nack : decodeTableWord 16 0xA00 = some .qAdNack := by decide

theorem test_decode_q_tx_empty : decodeTableWord 12 0xB00 = some .qTxEmpty := by decide

theorem test_decode_q_rx_full : decodeTableWord 16 0xC00 = some .qRxFull := by decide

theorem test_decode_q_ct_busy : decodeTableWord 16 0xD00 = some .qCtBusy := by decide

theorem test_decode_q_ct_master : decodeTableWord 16 0xE00 = some .qCtMaster := by decide

/-- R93: the reserved codes, and argument bits where R86 fixes them at 0; R94: other widths. -/
theorem test_decode_rejects :
    decodeTableWord 16 0x700 = none ∧ decodeTableWord 16 0xFAB = none ∧ decodeTableWord 16 0x001 = none ∧
    decodeTableWord 16 0x502 = none ∧ decodeTableWord 16 0x1000 = none ∧ decodeTableWord 32 0x000 = none ∧
    decodeTableWord 40 0x4_0000_0000 = none := by decide

/-! ### Page arithmetic: V1 and R134 -/

theorem test_chunk_lengths :
    chunkLength 250 10 256 = 6 ∧ chunkLength 16 14 16 = 14 ∧ chunkLength 0 0 16 = 0 ∧ chunkLength 0x00FF 5 256 = 1 ∧
    chunkLength 0x0100 300 256 = 256 ∧ chunkLength 250 6 256 = 6 ∧ chunkLength 0xFFFF 2 256 = 1 ∧ chunkLength 7 9 1 = 1 ∧
    chunkLength 0 65535 65536 = 65535 ∧ chunkLength 0x8000 65535 65536 = 32768 := by decide

/-! ### States -/

/-- The deterministic environment of R70, idle. -/
def quiet : Env := { Env.initial with kind := .reference, wcNacks := 2 }

/-- In the last round before WAIT_LIMIT of phase `p` of `write_block(250, 6)`, in the reference environment. -/
def mid (p : Phase) : State :=
  { State.reset with
    phase := p, op := 0b01, addr := 250, rem := 6, chunk := 6, busy := true, wcnt := 3, pcnt := 1, env := quiet }

/-- The same of `read_block(250, 6)`. -/
def midRead (p : Phase) : State := { mid p with op := 0b11 }

/-- With the flags of a transaction under way. -/
def active (s : State) : State :=
  { s with env := { s.env with
                    ctBusy := true, ctMaster := true, stSent := true, adDone := true, txEmpty := true, rxFull := true } }

/-- With a first sample held. -/
def held (b : Bool) (s : State) : State := { s with first := some b }

/-- The next state, if there is one. -/
def next (o : Host.Outcome State Fault Refusal) : Option State :=
  match o with
  | .next s => some s
  | .fault _ | .refused _ => none

/-! ### One step of each instruction, expected results from the rules and vectors named -/

/-- V2, R84: `CW = 0x0_0010_FFFF`, "same command: `REM <- 1`". -/
theorem test_write_byte :
    (next (exec (.writeByte 0x0010 0xFFFF) .reset)).map (fun t => (t.addr, t.rem, t.chunk)) = some (0x0010, 1, 1) := by
  decide

/-- S1: the first unit of `write_block(250, 10)` has 6 bytes. -/
theorem test_write_block :
    (next (exec (.writeBlock 250 10) .reset)).map (fun t => (t.chunk, t.phase)) = some (6, .u1Start) := by decide

/-- Z1: STATUS is `0b0001`. -/
theorem test_read_byte : (next (exec (.readByte 0x21 0) .reset)).map State.status = some 0b0001 := by decide

/-- B4: zero length, STATUS `0b0010` at acceptance. -/
theorem test_read_block :
    (next (exec (.readBlock 0x2E 0) .reset)).map (fun t => (t.status, t.pw)) = some (0b0010, none) := by decide

/-- Z2: a command while BUSY = 1 is ignored. -/
theorem test_write_block_while_busy :
    next (exec (.writeBlock 0 4) (mid .u1Wait)) = some (mid .u1Wait) := by decide

/-- R71: the start condition is sent at once. -/
theorem test_bus_start :
    (next (exec .busStart (mid .u1Start))).map (fun t => (t.phase, t.pw, t.env.stSent, t.wcnt)) =
      some (.u1Wait, some 0x000, true, 0) := by decide

/-- R76: the stop commits the latch and starts the write cycle. -/
theorem test_bus_stop :
    (next (exec .busStop { mid .uStop with env := { quiet with mode := .wData, latch := [(0x12, 0xC1)] } })).map
      (fun t => (t.phase, t.pw, t.env.memRead 0x12, t.env.wbusy)) = some (.uStopWait, some 0x100, 0xC1, 2) := by decide

/-- W3: device absent. -/
theorem test_bus_send_address :
    (next (exec (.busSendAddress 0x50 .write) { mid .u2Addr with env := { quiet with present := false } })).map
      (fun t => (t.phase, t.pw, t.env.adNack, t.env.adDone)) = some (.u2Wait, some 0x2A0, true, false) := by decide

/-- R152: the low address byte of 0x00FA is the word 0x3FA. -/
theorem test_bus_send_byte :
    (next (exec (.busSendByte 0xFA) (mid .u4Lo))).map (fun t => (t.phase, t.pw)) = some (.u4LoWait, some 0x3FA) := by
  decide

/-- R1: the received byte is stored at BUF[CUR + IDX]. -/
theorem test_bus_recv_byte :
    (next (exec .busRecvByte { midRead .r7Recv with env := { quiet with dr := 0xD1 }, idx := 4 })).map
      (fun t => (t.phase, t.buf, t.idx)) = some (.r7AckOff, [(4, 0xD1)], 5) := by decide

/-- R166: acknowledgement goes off before the last byte. -/
theorem test_bus_set_ack :
    (next (exec (.busSetAck false) (midRead .r7AckOff))).map (fun t => (t.phase, t.pw, t.env.ackEn)) =
      some (.r7Wait, some 0x500, false) := by decide

/-- Q4: the pass of the loop that finds PCNT = POLL_LIMIT returns `Timeout`, with AD_NACK cleared. -/
theorem test_bus_clear_nack :
    (next (exec .busClearNack { mid .pClear with pcnt := 8, env := { quiet with adNack := true } })).map
      (fun t => (t.status, t.env.adNack)) = some (0b1110, false) := by decide

/-- W1: `Timeout` after the last round. -/
theorem test_q_st_sent :
    (next (exec .qStSent (mid .u1Wait))).map (fun t => (t.phase, t.result, t.wcnt)) = some (.uStop, .timeout, 4) := by
  decide

/-- R4: step 6 of a read waits on AD_DONE alone. -/
theorem test_q_ad_done :
    (next (exec .qAdDone { midRead .r6Wait with env := { quiet with adNack := true } })).map (fun t => (t.phase, t.result)) =
      some (.uStop, .timeout) := by decide

/-- W4: both sampled 1, not-acknowledged wins. -/
theorem test_q_ad_nack :
    (next (exec .qAdNack (held true { mid .u2Wait with env := { quiet with adNack := true } }))).map
      (fun t => (t.phase, t.result, t.nacked)) = some (.uStop, .notAcknowledged, true) := by decide

/-- R145: the wait after the last data byte leads to the stop. -/
theorem test_q_tx_empty :
    (next (exec .qTxEmpty (active { mid .w5Wait with idx := 5 }))).map (fun t => (t.phase, t.idx)) = some (.uStop, 6) := by
  decide

/-- R5: `Timeout` in `R7_WAIT`. -/
theorem test_q_rx_full :
    (next (exec .qRxFull { midRead .r7Wait with idx := 1 })).map (fun t => (t.phase, t.result, t.idx)) =
      some (.uStop, .timeout, 1) := by decide

/-- W6: `q_ct_busy` answers 0 and `q_ct_master` is asked all the same. -/
theorem test_q_ct_busy :
    (next (exec .qCtBusy (mid .u3Check))).map (fun t => (t.phase, t.issues .qCtMaster)) = some (.u3Check, true) := by decide

/-- W5, W6: `BusFault`. -/
theorem test_q_ct_master :
    (next (exec .qCtMaster (held false (active (mid .u3Check))))).map (fun t => (t.phase, t.result)) =
      some (.uStop, .busFault) := by decide

/-- B7, D17: the address register wraps. -/
theorem test_q_ct_master_wraps :
    (next (exec .qCtMaster (held false { midRead .uStopWait with addr := 0xFFFE, rem := 4, chunk := 2 }))).map
      (fun t => (t.addr, t.cur, t.rem, t.chunk)) = some (0, 2, 2, 2) := by decide

/-! ### Placing: the first step after reset runs the placed word -/

/-- Whether the very next step has a next state in which `f` holds. -/
def placed (nbits w : Nat) (f : State → Bool) : Bool :=
  match step (State.reset.withFetchWord nbits w) with
  | .next t => f t
  | .fault _ | .refused _ => false

theorem test_placed_commands :
    placed 40 0x1_00FA_000A (fun t => t.busy && t.rem == 10) = true ∧
    placed 40 0x2_0010_0000 (fun t => t.busy && t.rem == 1) = true := by decide

theorem test_placed_actions :
    placed 16 0x000 (fun t => t.pw == some 0x000) = true ∧ placed 16 0x100 (fun t => t.pw == some 0x100) = true ∧
    placed 16 0x200 (fun t => t.pw == some 0x200) = true ∧ placed 16 0x2FF (fun t => t.pw == some 0x2FF) = true ∧
    placed 16 0x300 (fun t => t.pw == some 0x300) = true ∧ placed 16 0x400 (fun t => t.pw == some 0x400) = true ∧
    placed 16 0x500 (fun t => t.pw == some 0x500) = true ∧ placed 16 0x600 (fun t => t.pw == some 0x600) = true := by
  decide

theorem test_placed_queries :
    placed 16 0x800 (fun _ => true) = true ∧ placed 16 0x900 (fun t => t.draws == 1) = true ∧
    placed 16 0xA00 (fun _ => true) = true ∧ placed 16 0xB00 (fun _ => true) = true ∧
    placed 16 0xC00 (fun _ => true) = true ∧ placed 16 0xD00 (fun t => t.draws == 1) = true ∧
    placed 16 0xE00 (fun _ => true) = true := by decide

/-- R93: a reserved code placed is refused by name. -/
theorem test_placed_reserved :
    step (State.reset.withFetchWord 16 0x700) = .refused (.noSuchPrimitive 0x700) := by rfl

/-! ### Witnesses: for each statement with hypotheses, a state and operands that meet them

The wait states stand in the last round before WAIT_LIMIT (WCNT = 3 of 4), the boundary of `roundDue`. -/

/-- A state with the sample's parameters and WCNT below its WAIT_LIMIT has a round due. -/
theorem due {s : State} (hc : s.cfg = Config.sample) (hw : s.wcnt < 4) : s.roundDue := by
  intro n hn
  rw [hc] at hn
  cases hn
  exact hw

/-- The control invariant of a state with the sample's parameters, where its decidable part is checked. -/
theorem control {s : State} (hc : s.cfg = Config.sample) (hw : s.wcnt < 4) (hp : s.pcnt ≤ 8)
    (h : (s.busy = true ↔ s.phase ≠ .idle) ∧ (s.busy = true → s.done = false) ∧ (s.busy = true → s.rem ≠ 0) ∧
      (s.busy = true → s.chunk = s.nextChunk) ∧ (s.busy = true → s.cur.toNat + s.rem.toNat ≤ 65535) ∧
      (s.phase.onlyRead = true → s.isRead = true) ∧ (s.phase.onlyWrite = true → s.isRead = false) ∧
      (s.phase.inData = true → s.idx < s.chunk) ∧
      (s.phase = .r7AckOn → s.idx = 0 ∧ s.idx.toNat + 1 < s.chunk.toNat) ∧
      (s.phase = .r7AckOff → s.idx.toNat + 1 = s.chunk.toNat) ∧
      (s.phase = .r7Wait ∨ s.phase = .r7Recv → s.idx.toNat + 1 < s.chunk.toNat → s.env.ackEn = true) ∧
      (s.phase = .r7Wait ∨ s.phase = .r7Recv → s.idx.toNat + 1 = s.chunk.toNat → s.env.ackEn = false) ∧
      (s.busy = true → s.phase.isStop = false → s.result = .ok) ∧
      (s.phase.inPoll = true → s.result = .ok ∨ s.result = .timeout) ∧ (s.phase = .u3Check → s.nacked = false) ∧
      (s.phase = .pClear → s.nacked = true) ∧ (s.first.isSome = true → s.phase.twoQueries = true)) : s.Control := by
  obtain ⟨h1, h2, h3, h4, h5, h6, h7, h8, h9, h10, h11, h12, h13, h14, h15, h16, h17⟩ := h
  refine ⟨h1, h2, h3, h4, h5, h6, h7, h8, h9, h10, h11, h12, h13, h14, h15, h16, h17, fun _ => due hc hw, ?_, ?_⟩
  · intro n hn
    exact Nat.le_of_lt (due hc hw n hn)
  · intro n hn
    rw [hc] at hn
    cases hn
    exact hp

theorem witness_EncodeOfDecode :
    decode (.pw 0x2A1) = .ok (.busSendAddress 0x50 .read) ∧ decode (.cw 0x3_FFFF_FFFF) = .ok (.readBlock 0xFFFF 0xFFFF) :=
  ⟨rfl, rfl⟩

/-- A word without operand, one with a fixed argument bit, one with a full operand. -/
theorem witness_BlockIssuesNoReservedWord :
    (mid .u1Start).nextRequest = .next (some 0x000) ∧ (midRead .r7AckOn).nextRequest = .next (some 0x501) ∧
    (mid .u4Lo).nextRequest = .next (some 0x3FA) := ⟨rfl, rfl, rfl⟩

theorem witness_StepRunsHostCommand :
    ({ State.reset with host := [.writeCmd 0x1_00FA_000A] } : State).host = .writeCmd 0x1_00FA_000A :: [] := rfl

theorem witness_StepRunsBlockRequest :
    ((mid .u1Start).nextRequest = .next (some 0x000) ∧ decodePw 0x000 = .ok .busStart ∧ (mid .u1Start).host = []) ∧
    (({ mid .u1Start with host := [.waitDone] } : State).nextRequest = .next (some 0x000) ∧
      ({ mid .u1Start with host := [.waitDone] } : State).done = false) ∧
    (({ mid .u1Start with host := [.pause 1] } : State).nextRequest = .next (some 0x000)) :=
  ⟨⟨rfl, rfl, rfl⟩, ⟨rfl, rfl⟩, rfl⟩

/-- The last index inside a buffer of two bytes, and the first beyond it. -/
def small (idx : Half) : State := { mid .w5Data with cfg := { Config.sample with bufSize := 2 }, idx := idx }

theorem witness_StepStopsAtMissingBufferByte :
    ((small 1).host = [] ∧ (small 1).phase = .w5Data ∧ (small 1).cur.toNat + (small 1).idx.toNat < (small 1).cfg.bufSize ∧
      Memory.read bufBlank (small 1).buf ((small 1).cur.toNat + (small 1).idx.toNat) = none) ∧
    ((small 2).host = [] ∧ (small 2).phase = .w5Data ∧
      (small 2).cfg.bufSize ≤ (small 2).cur.toNat + (small 2).idx.toNat) ∧
    (({ small 2 with phase := .r7Recv } : State).phase = .r7Recv ∧
      ({ small 2 with phase := .r7Recv } : State).host = []) := by decide

theorem witness_IdleBlockDoesNothing : State.reset.host = [] ∧ State.reset.phase = .idle := by decide

theorem witness_ResetInputEffect : ({ mid .w5Wait with host := [.reset] } : State).host = .reset :: [] := rfl

theorem witness_StatusRegister :
    ({ mid .w5Wait with host := [.readStatus] } : State).host = .readStatus :: [] ∧
    ({ mid .w5Wait with host := [.writeStatus 0xF] } : State).host = .writeStatus 0xF :: [] := by decide

theorem witness_HostBufferAccess :
    ((mid .w5Wait).busy = true ∧ ({ mid .w5Wait with host := [.writeBuf 0 1] } : State).host = .writeBuf 0 1 :: [] ∧
      ({ mid .w5Wait with host := [.readBuf 0] } : State).host = .readBuf 0 :: []) ∧
    (State.reset.MemoryOk ∧ State.reset.busy = false ∧ (65535 : Half).toNat < State.reset.cfg.bufSize) :=
  ⟨by decide, ⟨by decide, by decide, by decide⟩, by decide, by decide⟩

theorem witness_BlockCommandAccepted : State.reset.busy = false ∧ (0xFFFF : Half) ≠ 0 := by decide

theorem witness_ByteCommandAccepted : State.reset.busy = false := rfl

theorem witness_ZeroLengthCompletesAtAcceptance : State.reset.busy = false := rfl

theorem witness_CommandWhileBusyIgnored :
    (Instr.writeBlock 0 4).isCommand = true ∧ (mid .u1Wait).busy = true := by decide

theorem witness_CommandFrame :
    (Instr.writeBlock 0 4).isCommand = true ∧ (next (exec (.writeBlock 0 4) .reset)).isSome = true := by decide

theorem witness_UnitStepOne :
    (mid .u1Start).phase = .u1Start ∧ (mid .u1Wait).phase = .u1Wait ∧ (mid .u1Wait).roundDue :=
  ⟨rfl, rfl, due rfl (by decide)⟩

theorem witness_UnitStepsTwoAndThree :
    (mid .u2Addr).phase = .u2Addr ∧ ((mid .u2Wait).phase = .u2Wait ∧ (mid .u2Wait).first = none) ∧
    ((held true (mid .u2Wait)).phase = .u2Wait ∧ (held true (mid .u2Wait)).first = some true ∧
      (held true (mid .u2Wait)).roundDue) ∧
    ((mid .u3Check).phase = .u3Check ∧ (mid .u3Check).nacked = false ∧ (mid .u3Check).first = none) ∧
    ((held true (mid .u3Check)).phase = .u3Check ∧ (held true (mid .u3Check)).nacked = false ∧
      (held true (mid .u3Check)).first = some true) :=
  ⟨rfl, ⟨rfl, rfl⟩, ⟨rfl, rfl, due rfl (by decide)⟩, ⟨rfl, rfl, rfl⟩, rfl, rfl, rfl⟩

theorem witness_UnitStepFour :
    (mid .u4Hi).phase = .u4Hi ∧ ((mid .u4HiWait).phase = .u4HiWait ∧ (mid .u4HiWait).roundDue) ∧
    (mid .u4Lo).phase = .u4Lo ∧ ((mid .u4LoWait).phase = .u4LoWait ∧ (mid .u4LoWait).roundDue) :=
  ⟨rfl, ⟨rfl, due rfl (by decide)⟩, rfl, rfl, due rfl (by decide)⟩

/-- The last data byte of a unit, at the last index of the buffer. -/
def lastByte (p : Phase) : State :=
  { mid p with cfg := { Config.sample with bufSize := 6 }, idx := 5, buf := [(5, 0xA5)] }

theorem witness_UnitStepFive :
    ((lastByte .w5Data).phase = .w5Data ∧
      (lastByte .w5Data).cur.toNat + (lastByte .w5Data).idx.toNat < (lastByte .w5Data).cfg.bufSize ∧
      Memory.read bufBlank (lastByte .w5Data).buf ((lastByte .w5Data).cur.toNat + (lastByte .w5Data).idx.toNat) =
        some 0xA5) ∧
    ((mid .w5Wait).phase = .w5Wait ∧ (mid .w5Wait).roundDue) :=
  ⟨by decide, rfl, due rfl (by decide)⟩

/-- A unit that failed, in the idle wait of its stop step. -/
def failed (r : Result) (p : Phase) : State := { mid p with result := r }

theorem witness_UnitStopStepAndFailure :
    (mid .uStop).phase = .uStop ∧ ((mid .uStopWait).phase = .uStopWait ∧ (mid .uStopWait).first = none) ∧
    ((held false (failed .busFault .uStopWait)).phase = .uStopWait ∧
      (held false (failed .busFault .uStopWait)).first = some false ∧
      (held false (failed .busFault .uStopWait)).roundDue ∧ (held false (failed .busFault .uStopWait)).result ≠ .ok) ∧
    ((held true (mid .uStopWait)).phase = .uStopWait ∧ (held true (mid .uStopWait)).first = some true ∧
      (held true (mid .uStopWait)).roundDue ∧ (held true (mid .uStopWait)).result = .ok) ∧
    (held false (active (mid .uStopWait))).hears .qCtMaster = true :=
  ⟨rfl, ⟨rfl, rfl⟩, ⟨rfl, rfl, due rfl (by decide), by decide⟩, ⟨rfl, rfl, due rfl (by decide), rfl⟩, by decide⟩

theorem witness_ReadLoopAfterUnit :
    (held false (midRead .uStopWait)).phase = .uStopWait ∧ (held false (midRead .uStopWait)).first = some false ∧
    (held false (midRead .uStopWait)).hears .qCtMaster = false ∧ (held false (midRead .uStopWait)).result = .ok ∧
    (held false (midRead .uStopWait)).op.getLsbD 1 = true := by decide

theorem witness_WriteUnitIsPolled :
    (held false (mid .uStopWait)).phase = .uStopWait ∧ (held false (mid .uStopWait)).first = some false ∧
    (held false (mid .uStopWait)).hears .qCtMaster = false ∧ (held false (mid .uStopWait)).result = .ok ∧
    (held false (mid .uStopWait)).op.getLsbD 1 = false := by decide

theorem witness_ReadStepFive :
    (midRead .r5Start).phase = .r5Start ∧ (midRead .r5Wait).phase = .r5Wait ∧ (midRead .r5Wait).roundDue :=
  ⟨rfl, rfl, due rfl (by decide)⟩

theorem witness_ReadStepSix :
    (midRead .r6Addr).phase = .r6Addr ∧ (midRead .r6Wait).phase = .r6Wait ∧ (midRead .r6Wait).roundDue :=
  ⟨rfl, rfl, due rfl (by decide)⟩

theorem witness_ReadStepSevenBegins :
    ((midRead .r7Check).phase = .r7Check ∧ (midRead .r7Check).first = none) ∧
    ((held true (midRead .r7Check)).phase = .r7Check ∧ (held true (midRead .r7Check)).first = some true) ∧
    (midRead .r7AckOn).phase = .r7AckOn ∧ (midRead .r7AckOff).phase = .r7AckOff := by decide

/-- The last byte of a read unit, at the last index of the buffer where that has 6 bytes. -/
def lastRead (bufSize : Nat) : State :=
  { midRead .r7Recv with cfg := { Config.sample with bufSize := bufSize }, idx := 5 }

theorem witness_ReadStepSevenBytes :
    ((midRead .r7Wait).phase = .r7Wait ∧ (midRead .r7Wait).roundDue) ∧
    ((lastRead 6).phase = .r7Recv ∧ (lastRead 6).cur.toNat + (lastRead 6).idx.toNat < (lastRead 6).cfg.bufSize) :=
  ⟨⟨rfl, due rfl (by decide)⟩, by decide⟩

theorem witness_PollStartAndAddress :
    (mid .pStart).phase = .pStart ∧ ((mid .pStartWait).phase = .pStartWait ∧ (mid .pStartWait).roundDue) ∧
    (mid .pAddr).phase = .pAddr ∧ ((mid .pAddrWait).phase = .pAddrWait ∧ (mid .pAddrWait).first = none) ∧
    ((held false (mid .pAddrWait)).phase = .pAddrWait ∧ (held false (mid .pAddrWait)).first = some false ∧
      (held false (mid .pAddrWait)).roundDue) :=
  ⟨rfl, ⟨rfl, due rfl (by decide)⟩, rfl, ⟨rfl, rfl⟩, rfl, rfl, due rfl (by decide)⟩

theorem witness_PollStopAndDecision :
    (mid .pStop).phase = .pStop ∧ ((mid .pStopWait).phase = .pStopWait ∧ (mid .pStopWait).first = none) ∧
    ((held false (mid .pStopWait)).phase = .pStopWait ∧ (held false (mid .pStopWait)).first = some false ∧
      (held false (mid .pStopWait)).roundDue ∧ (held false (mid .pStopWait)).result = .ok) :=
  ⟨rfl, ⟨rfl, rfl⟩, rfl, rfl, due rfl (by decide), rfl⟩

/-- PCNT at POLL_LIMIT. -/
def refused : State := { mid .pClear with pcnt := 8, nacked := true }

theorem witness_PollRetriesUpToLimit :
    refused.phase = .pClear ∧ ∀ n, refused.cfg.pollLimit.value = some n → refused.pcnt ≤ n := by
  refine ⟨rfl, fun n hn => ?_⟩
  cases hn
  exact Nat.le_refl 8

theorem witness_PollTimeoutInsideAttempt :
    (held true (failed .timeout .pStopWait)).phase = .pStopWait ∧
    (held true (failed .timeout .pStopWait)).first = some true ∧ (held true (failed .timeout .pStopWait)).roundDue ∧
    (held true (failed .timeout .pStopWait)).result ≠ .ok :=
  ⟨rfl, rfl, due rfl (by decide), by decide⟩

theorem witness_CallsByOthers :
    (Instr.busClearNack.isCommand = false ∧ State.reset.busy = false ∧ State.reset.phase = .idle) ∧
    ((mid .u1Wait).busy = true ∧ (mid .u1Wait).nextCall ≠ .next (some .busClearNack)) :=
  ⟨by decide, rfl, by intro h; cases h⟩

/-- A forced answer for the next call (R77). -/
def forcing : State := { mid .u1Wait with forced := [some 0xA5] }

theorem witness_RequestAndResponse :
    Instr.qStSent.isCommand = false ∧ Instr.qStSent.isQuery = true ∧
    (Instr.busStart.isQuery = false ∧ Instr.busStart ≠ .busRecvByte) ∧ forcing.forced = some 0xA5 :: [] ∧
    State.reset.env.kind = .oracle ∧ ({ Env.initial with stSent := true, mem := [(0x12, 0xC1)] } : Env).kind = .oracle := by
  decide

theorem witness_PlainActionFrame :
    (next (exec .busStart (mid .u1Start))).isSome = true ∧
    (next (exec (.busSendAddress 0x50 .read) (midRead .r6Addr))).isSome = true ∧
    (next (exec (.busSendByte 0xA5) (lastByte .w5Data))).isSome = true ∧
    (next (exec (.busSetAck true) (midRead .r7AckOn))).isSome = true := by decide

theorem witness_StopAndClearFrame :
    (next (exec .busStop (mid .uStop))).isSome = true ∧ (¬ ((mid .uStop).phase = .u3Check ∧ (mid .uStop).nacked = true)) ∧
    ((mid .uStop).env.kind = .reference ∧ ∀ c ∈ (mid .uStop).env.latch, c.1 ≠ 0) ∧ (next (exec .busClearNack refused)).isSome = true := by decide

theorem witness_QueryFrame :
    Instr.qRxFull.isQuery = true ∧ (next (exec .qRxFull (midRead .r7Wait))).isSome = true ∧
    (next (exec .qCtMaster (held false (midRead .uStopWait)))).isSome = true ∧
    (next (exec .qAdNack (held false (mid .pAddrWait)))).isSome = true ∧
    (next (exec .qTxEmpty (active (mid .w5Wait)))).isSome = true := by decide

theorem witness_ReceiveFrame :
    (next (exec .busRecvByte (lastRead 6))).isSome = true ∧
    (next (exec .busRecvByte .reset)).isSome = true ∧ State.reset.phase ≠ .r7Recv := by decide

/-- The reference device in mode `m`, with PTR at the last byte of a page. -/
def device (m : DevMode) : State := { mid .u2Addr with env := { quiet with mode := m, ptr := 0x01FF } }

theorem witness_ReferenceStart : (device .idle).env.kind = .reference := rfl

theorem witness_ReferenceSendAddress :
    (device .idle).env.kind = .reference ∧
    ((device .idle).env.present = true ∧ (0x50 : BitVec 7) = (device .idle).cfg.devAddr ∧ (device .idle).env.wbusy = 0) ∧
    ({ device .idle with env := { quiet with wbusy := 1 } } : State).env.wbusy ≠ 0 ∧
    ({ device .idle with env := { quiet with present := false } } : State).env.present = false := by decide

theorem witness_ReferenceSendByte :
    (device .wAddr0).env.kind = .reference ∧ (device .wAddr0).env.mode = .wAddr0 ∧ (device .wAddr1).env.mode = .wAddr1 ∧
    (device .wData).env.mode = .wData ∧ (device .rData).env.mode = .rData := by decide

theorem witness_ReferenceReceiveAndAck :
    (device .rData).env.kind = .reference ∧ (device .rData).forced = [] ∧ (device .rData).env.mode = .rData ∧
    (device .rData).env.ackEn = true ∧
    ({ device .rData with env := { quiet with mode := .rData, ackEn := false } } : State).env.ackEn = false ∧
    (device .idle).env.mode ≠ .rData := by decide

/-- With a latched byte. -/
def latched : State := { device .wData with env := { quiet with mode := .wData, latch := [(0x12, 0xC1), (0x12, 0xC2)] } }

theorem witness_ReferenceStop :
    (latched.env.kind = .reference ∧ latched.MemoryOk ∧ latched.env.mode = .wData ∧ latched.env.latch ≠ []) ∧
    ((device .wData).env.kind = .reference ∧ (device .wData).MemoryOk ∧
      ¬ ((device .wData).env.mode = .wData ∧ (device .wData).env.latch ≠ [])) :=
  ⟨⟨rfl, ⟨by decide, by decide, by decide⟩, rfl, by decide⟩, rfl, ⟨by decide, by decide, by decide⟩, by decide⟩

theorem witness_ReferenceQueries :
    (device .idle).env.kind = .reference ∧ (device .idle).forced = [] ∧ Instr.qCtMaster.isQuery = true ∧
    forcing.env.kind = .reference ∧ forcing.forced = some 0xA5 :: [] := by decide

/-- AD_NACK left set, in the stop step. -/
def stale : State := { mid .uStop with env := { quiet with adNack := true } }

theorem witness_AckFailureFlagIsSticky :
    stale.env.kind = .reference ∧ stale.env.adNack = true ∧ Instr.busStop ≠ .busClearNack ∧
    (next (exec .busStop stale)).isSome = true := by decide

/-- V1 row 2 for the law of one page, row 8 for the boundary case, rows 1 and 6 for the others, the largest page exponent. -/
theorem witness_ChunkLaws :
    250 + 6 = (250 / 2 ^ 8 + 1) * 2 ^ 8 ∧ ((4 : Nat) ≤ 16 ∧ 14 ≤ 2 ^ 4 ∧ 16 / 2 ^ 4 = (16 + 14) / 2 ^ 4) ∧ ((1 : Nat) ≤ 10 ∧ chunkLength 250 10 (2 ^ 8) < 10) ∧
    (0x0100 % 2 ^ 8 = 0 ∧ (16 : Nat) ≤ 16) := by decide

theorem witness_ChunkIsLargestInsidePage :
    (16 : Nat) ≤ 16 ∧ (32768 : Nat) ≤ 65535 ∧ 0x8000 + 32768 ≤ (0x8000 / 2 ^ 16 + 1) * 2 ^ 16 := by decide

/-- A write command in the middle of its data, at the last byte before a page boundary; the buffer filled. -/
def running : State := { mid .w5Wait with cfg := Config.sample, rem := 1, chunk := 1, addr := 255, buf := [(0, 0xA5)] }

theorem running_control : running.Control := control rfl (by decide) (by decide) (by decide)

theorem running_contract : running.Contract := by
  refine ⟨by decide, fun _ _ i hl hu => ?_⟩
  have : i = 0 := by
    have e1 : running.cur.toNat = 0 := rfl
    have e2 : running.rem.toNat = 1 := rfl
    omega
  subst this
  decide

theorem witness_UnitStaysInsidePage : running.Control ∧ running.busy = true := ⟨running_control, rfl⟩

theorem witness_MemoriesStayCanonical : running.MemoryOk ∧ (next (step running)).isSome = true :=
  ⟨⟨by decide, by decide, by decide⟩, by decide⟩

theorem witness_ControlIsInvariant : running.Control ∧ (next (step running)).isSome = true :=
  ⟨running_control, by decide⟩

theorem witness_ParametersNeverChange : (next (step running)).isSome = true := by decide

theorem witness_PhaseFollowsTheRules :
    running.Control ∧ (∀ rest, running.host ≠ .reset :: rest) ∧ (next (step running)).isSome = true :=
  ⟨running_control, (fun _ h => by cases h), by decide⟩

/-- The three ends of a command: a unit's stop wait, an attempt's stop wait, the last refused attempt. -/
theorem witness_CommandEndsOnlyAfterStop :
    (∀ rest, (held false (failed .busFault .uStopWait)).host ≠ .reset :: rest) ∧
    (held false (failed .busFault .uStopWait)).busy = true ∧
    (next (step (held false (failed .busFault .uStopWait)))).map State.busy = some false ∧
    (held false (mid .pStopWait)).busy = true ∧
    (next (step (held false (mid .pStopWait)))).map State.busy = some false ∧
    refused.busy = true ∧ (next (step refused)).map State.busy = some false :=
  ⟨(fun _ h => by cases h), by decide, by decide, by decide, by decide, by decide, by decide⟩

/-- The last attempt of a `write_block` with 6 bytes left to count off, acknowledged. -/
theorem witness_WriteOkMeansAcknowledgedPoll :
    (held false (mid .pStopWait)).Control ∧ (∀ rest, (held false (mid .pStopWait)).host ≠ .reset :: rest) ∧
    (held false (mid .pStopWait)).busy = true ∧ (held false (mid .pStopWait)).op.getLsbD 1 = false ∧
    (next (step (held false (mid .pStopWait)))).map (fun t => (t.busy, t.result)) = some (false, .ok) :=
  ⟨control rfl (by decide) (by decide) (by decide), (fun _ h => by cases h), by decide, by decide, by decide⟩

theorem witness_FirstFailureWins :
    (failed .busFault .uStop).Control ∧ (∀ rest, (failed .busFault .uStop).host ≠ .reset :: rest) ∧
    (failed .busFault .uStop).busy = true ∧ (failed .busFault .uStop).result ≠ .ok ∧
    (next (step (failed .busFault .uStop))).isSome = true :=
  ⟨control rfl (by decide) (by decide) (by decide), (fun _ h => by cases h), by decide, by decide, by decide⟩

theorem witness_BufferWrittenOnlyByReceive :
    (next (step (lastRead 6))).map (fun t => Memory.read bufBlank t.buf 5) ≠
      some (Memory.read bufBlank (lastRead 6).buf 5) ∧ (next (step (lastRead 6))).isSome = true := by decide

/-- Another device, whose queried flag is the same. -/
theorem witness_BlockSeesOnlyAnswers :
    (mid .u1Wait).reply .qStSent =
      ({ mid .u1Wait with env := { quiet with ctBusy := true, dr := 7 }, forced := [], draws := 5 } : State).reply .qStSent ∧
    (next (exec .qStSent (mid .u1Wait))).isSome = true := by decide

theorem witness_CapacityIsNeverRead : State.reset.env.kind = .oracle := rfl

theorem witness_ContractKeepsRunning : running.Control ∧ running.Contract ∧ running.host = [] :=
  ⟨running_control, running_contract, rfl⟩

theorem witness_BoundedCommandCompletes :
    running.Control ∧ running.Contract ∧ running.host = [] ∧ running.busy = true ∧
    running.cfg.waitLimit.value = some 4 ∧ running.cfg.pollLimit.value = some 8 :=
  ⟨running_control, running_contract, rfl, rfl, rfl, rfl⟩

/-- The control invariant where acknowledgement matters: the last byte of a read unit is awaited, acknowledgement off. -/
theorem reading_control :
    ({ midRead .r7Wait with idx := 5, env := { quiet with ackEn := false } } : State).Control :=
  control rfl (by decide) (by decide) (by decide)

/-- The control invariant in the poll, after a refused attempt at POLL_LIMIT. -/
theorem refused_control : refused.Control := control rfl (by decide) (by decide) (by decide)

end Sys2Proof.Tests
end

section
/-! The block's turn and the parameter CAPACITY (00_scope): a step on the block's turn is the execution of the request the
phase issues, and with an environment that answers from the oracle no step reads CAPACITY. -/

namespace Sys2Proof.Proofs.Scope

open Sys2Proof Sys2Proof.Machine Sys2Proof.Claims

/-! ### Whose turn it is -/

/-- The block's turn is the execution of the request word its phase issues (R26, R85). -/
theorem blockTurn_of_request {s : State} {w : ReqWord} {i : Instr} (hw : s.nextRequest = .next (some w))
    (hi : decodePw w = .ok i) : blockTurn s = exec i s := by
  simp only [blockTurn, hw, runRequest, hi]

theorem step_of_host_nil {s : State} (h : s.host = []) : step s = blockTurn s := by
  simp only [step, turn, h]

theorem step_of_waitDone {s : State} {rest : List HostMove} (h : s.host = .waitDone :: rest) (hd : s.done = false) :
    step s = blockTurn s := by
  simp [step, turn, h, hd]

theorem step_of_pause {s : State} {n : Nat} {rest : List HostMove} (h : s.host = .pause (n + 1) :: rest) :
    step s = blockTurn { s with host := .pause n :: rest } := by
  simp only [step, turn, h]

/-- Settles O6: each of the three ways the block gets its turn leads to `blockTurn`, and the phase's request does not depend
on the host's moves. -/
theorem stepRunsBlockRequest : Obligations.StepRunsBlockRequest := by
  intro s w i hw hi
  refine ⟨fun h => ?_, fun rest h hd => ?_, fun n rest h => ?_⟩
  · rw [step_of_host_nil h, blockTurn_of_request hw hi]
  · rw [step_of_waitDone h hd, blockTurn_of_request hw hi]
  · have hw' : ({ s with host := .pause n :: rest } : State).nextRequest = .next (some w) := hw
    rw [step_of_pause h, blockTurn_of_request hw' hi]

/-! ### Moves of the block that do not read CAPACITY -/

@[simp] theorem withCapacity_phase (c : Nat) (s : State) : (withCapacity c s).phase = s.phase := rfl
@[simp] theorem withCapacity_busy (c : Nat) (s : State) : (withCapacity c s).busy = s.busy := rfl
@[simp] theorem withCapacity_host (c : Nat) (s : State) : (withCapacity c s).host = s.host := rfl

/-- The move `f` gives the same state whether CAPACITY is changed before it or after it. -/
def CapacityBlind (f : State → State) : Prop := ∀ c s, f (withCapacity c s) = withCapacity c (f s)

theorem goto_capacityBlind (p : Phase) : CapacityBlind (State.goto p) := fun _ _ => rfl
theorem raise_capacityBlind (e : Result) : CapacityBlind (State.raise e) := fun _ _ => rfl
theorem complete_capacityBlind (r : Result) : CapacityBlind (State.complete r) := fun _ _ => rfl
theorem pollLate_capacityBlind : CapacityBlind State.pollLate := fun _ _ => rfl

/-- A branch on a condition that does not depend on CAPACITY. -/
theorem ite_capacityBlind {p : State → Prop} [DecidablePred p] {f g : State → State}
    (hp : ∀ c s, p (withCapacity c s) ↔ p s) (hf : CapacityBlind f) (hg : CapacityBlind g) :
    CapacityBlind fun s => if p s then f s else g s := by
  intro c s
  simp only [hp, hf c s, hg c s]
  exact (apply_ite _ _ _ _).symm

theorem loopTop_capacityBlind : CapacityBlind State.loopTop :=
  ite_capacityBlind (fun _ _ => Iff.rfl) (complete_capacityBlind .ok) (fun _ _ => rfl)

theorem pollTop_capacityBlind : CapacityBlind State.pollTop :=
  ite_capacityBlind (fun _ _ => Iff.rfl) (complete_capacityBlind .timeout) (fun _ _ => rfl)

/-- The advance and the next unit (R136, R181, R191). -/
theorem advance_loopTop_capacityBlind : CapacityBlind fun s => s.advance.loopTop :=
  fun c s => loopTop_capacityBlind c s.advance

theorem pollStart_capacityBlind : CapacityBlind State.pollStart :=
  fun c s => pollTop_capacityBlind c { s with pcnt := 0 }

theorem unitReturn_capacityBlind : CapacityBlind State.unitReturn :=
  ite_capacityBlind (fun _ _ => Iff.rfl)
    (ite_capacityBlind (fun _ _ => Iff.rfl) advance_loopTop_capacityBlind pollStart_capacityBlind) (fun _ _ => rfl)

theorem stopLate_capacityBlind : CapacityBlind stopLate :=
  fun c s => unitReturn_capacityBlind c { s with result := firstFailure s.result .timeout }

theorem pollDecide_capacityBlind : CapacityBlind State.pollDecide :=
  ite_capacityBlind (fun _ _ => Iff.rfl)
    (ite_capacityBlind (fun _ _ => Iff.rfl) (goto_capacityBlind .pClear) advance_loopTop_capacityBlind)
    (complete_capacityBlind .timeout)

theorem accept_capacityBlind (op : BitVec 2) (addr len : Half) : CapacityBlind (State.accept op addr len) :=
  ite_capacityBlind (fun _ _ => Iff.rfl) (fun _ _ => rfl) fun c s =>
    loopTop_capacityBlind c { s with op := op, addr := addr, cur := 0, rem := len, result := .ok, busy := true,
                                     done := false }

theorem unitAddressed_capacityBlind : CapacityBlind unitAddressed :=
  ite_capacityBlind (fun _ _ => Iff.rfl) (fun _ _ => rfl) (fun _ _ => rfl)

theorem dataSent_capacityBlind : CapacityBlind dataSent :=
  ite_capacityBlind (fun _ _ => Iff.rfl) (fun _ _ => rfl) (fun _ _ => rfl)

theorem afterStored_capacityBlind : CapacityBlind afterStored :=
  ite_capacityBlind (fun _ _ => Iff.rfl) (fun _ _ => rfl)
    (ite_capacityBlind (fun _ _ => Iff.rfl) (fun _ _ => rfl) (fun _ _ => rfl))

/-- The end of a sample round reads WAIT_LIMIT, the round's answer and what the two ways on read (R121). -/
theorem endRound_capacityBlind {holds : State → Bool} {satisfied timedOut : State → State}
    (hh : ∀ c s, holds (withCapacity c s) = holds s) (hs : CapacityBlind satisfied) (hl : CapacityBlind timedOut) :
    CapacityBlind fun s => s.endRound (holds s) satisfied timedOut :=
  ite_capacityBlind (fun c s => by rw [hh c s]) (fun c s => hs c s.countRound)
    (ite_capacityBlind (fun _ _ => Iff.rfl) (fun c s => hl c s.countRound) (fun _ _ => rfl))

/-- A wait of a unit on one flag: a time-out raises `Timeout` (R121, R230). -/
theorem unitWait_capacityBlind {satisfied : State → State} (hs : CapacityBlind satisfied) :
    CapacityBlind fun s => s.endRound s.flag satisfied (State.raise .timeout) :=
  endRound_capacityBlind (fun _ _ => rfl) hs (raise_capacityBlind .timeout)

/-! ### How the block goes on after a call, phase by phase -/

theorem afterStart_capacityBlind : CapacityBlind afterStart := by
  intro c s
  simp only [afterStart, withCapacity_phase]
  split <;> rfl

theorem afterStop_capacityBlind : CapacityBlind afterStop := by
  intro c s
  simp only [afterStop, withCapacity_phase]
  split <;> rfl

theorem afterSendAddress_capacityBlind : CapacityBlind afterSendAddress := by
  intro c s
  simp only [afterSendAddress, withCapacity_phase]
  split <;> rfl

theorem afterSendByte_capacityBlind : CapacityBlind afterSendByte := by
  intro c s
  simp only [afterSendByte, withCapacity_phase]
  split <;> rfl

theorem afterSetAck_capacityBlind : CapacityBlind afterSetAck := by
  intro c s
  simp only [afterSetAck, withCapacity_phase]
  split <;> rfl

theorem afterClearNack_capacityBlind : CapacityBlind afterClearNack := by
  intro c s
  simp only [afterClearNack, withCapacity_phase]
  split
  · exact pollTop_capacityBlind c s
  · rfl

theorem afterStSent_capacityBlind : CapacityBlind afterStSent := by
  intro c s
  simp only [afterStSent, withCapacity_phase]
  split
  · exact unitWait_capacityBlind (goto_capacityBlind .u2Addr) c s
  · exact unitWait_capacityBlind (goto_capacityBlind .r6Addr) c s
  · exact endRound_capacityBlind (fun _ _ => rfl) (goto_capacityBlind .pAddr) pollLate_capacityBlind c s
  · rfl

theorem afterAdDone_capacityBlind : CapacityBlind afterAdDone := by
  intro c s
  simp only [afterAdDone, withCapacity_phase]
  split
  · rfl
  · rfl
  · exact unitWait_capacityBlind (goto_capacityBlind .r7Check) c s
  · rfl

theorem afterAdNack_capacityBlind : CapacityBlind afterAdNack := by
  have addressRound {sat late : State → State} (hs : CapacityBlind sat) (hl : CapacityBlind late) :
      CapacityBlind fun s => s.endRound (condAddrAny s.firstFlag s.flag) sat late :=
    endRound_capacityBlind (holds := fun s => condAddrAny s.firstFlag s.flag) (fun _ _ => rfl) hs hl
  intro c s
  simp only [afterAdNack, withCapacity_phase]
  split
  · exact addressRound unitAddressed_capacityBlind (raise_capacityBlind .timeout) c s
  · exact addressRound (sat := fun t => t.takeNacked.goto .pStop) (fun _ _ => rfl) pollLate_capacityBlind c s
  · rfl

theorem afterTxEmpty_capacityBlind : CapacityBlind afterTxEmpty := by
  intro c s
  simp only [afterTxEmpty, withCapacity_phase]
  split
  · exact unitWait_capacityBlind (goto_capacityBlind .u4Lo) c s
  · exact unitWait_capacityBlind (satisfied := addressSent) (fun _ _ => rfl) c s
  · exact unitWait_capacityBlind dataSent_capacityBlind c s
  · rfl

theorem afterRxFull_capacityBlind : CapacityBlind afterRxFull := by
  intro c s
  simp only [afterRxFull, withCapacity_phase]
  split
  · exact unitWait_capacityBlind (goto_capacityBlind .r7Recv) c s
  · rfl

theorem afterCtBusy_capacityBlind : CapacityBlind afterCtBusy := by
  intro c s
  simp only [afterCtBusy, withCapacity_phase]
  split <;> rfl

theorem afterCtMaster_capacityBlind : CapacityBlind afterCtMaster := by
  have activeTest {go : State → State} (hg : CapacityBlind go) :
      CapacityBlind fun s => if condActive s.firstFlag s.flag then go s else s.raise .busFault :=
    ite_capacityBlind (fun _ _ => Iff.rfl) hg (raise_capacityBlind .busFault)
  have idleRound {sat late : State → State} (hs : CapacityBlind sat) (hl : CapacityBlind late) :
      CapacityBlind fun s => s.endRound (condIdle s.firstFlag s.flag) sat late :=
    endRound_capacityBlind (holds := fun s => condIdle s.firstFlag s.flag) (fun _ _ => rfl) hs hl
  intro c s
  simp only [afterCtMaster, withCapacity_phase]
  split
  · exact activeTest (goto_capacityBlind .u4Hi) c s
  · exact activeTest (go := startReading) (fun _ _ => rfl) c s
  · exact idleRound unitReturn_capacityBlind stopLate_capacityBlind c s
  · exact idleRound pollDecide_capacityBlind (complete_capacityBlind .timeout) c s
  · rfl

/-! ### Accesses to BUF: their bound is BUF_SIZE -/

theorem bufWrite_withCapacity (c i : Nat) (v : Byte) (s : State) :
    (withCapacity c s).bufWrite i v = mapNext (withCapacity c) (s.bufWrite i v) := by
  have hsize : (withCapacity c s).cfg.bufSize = s.cfg.bufSize := rfl
  simp only [State.bufWrite, hsize]
  split <;> rfl

theorem afterRecvByte_withCapacity (c : Nat) (s : State) :
    afterRecvByte (withCapacity c s) = mapNext (withCapacity c) (afterRecvByte s) := by
  have hw : (withCapacity c s).bufWrite (withCapacity c s).bufIndex (withCapacity c s).rsp =
      mapNext (withCapacity c) (s.bufWrite s.bufIndex s.rsp) := bufWrite_withCapacity c _ _ s
  rw [afterRecvByte, hw, afterRecvByte]
  cases s.bufWrite s.bufIndex s.rsp with
  | next t => exact congrArg Host.Outcome.next (afterStored_capacityBlind c t)
  | fault r => rfl
  | refused r => rfl

/-! ### A primitive call with an environment that answers from the oracle -/

/-- The oracle's environment does not read the parameters (R6, R78). -/
theorem serve_withCapacity {s : State} (hk : s.env.kind = .oracle) (c : Nat) (i : Instr) :
    (withCapacity c s).serve i = withCapacity c (s.serve i) := by
  have he : (withCapacity c s).envAfter i = s.envAfter i := by
    have hk' : (withCapacity c s).env.kind = .oracle := hk
    rw [State.envAfter, State.envAfter, hk, hk']
    rfl
  rw [State.serve, he]
  rfl

theorem primitive_withCapacity {s : State} (hk : s.env.kind = .oracle) (c : Nat) (i : Instr)
    {block : State → Host.Outcome State Fault Refusal}
    (hb : ∀ t, block (withCapacity c t) = mapNext (withCapacity c) (block t)) :
    primitive i block (withCapacity c s) = mapNext (withCapacity c) (primitive i block s) := by
  have hi : (withCapacity c s).issues i = s.issues i := rfl
  simp only [primitive, hi, withCapacity_busy, serve_withCapacity hk, hb]
  split
  · rfl
  · split <;> rfl

/-- A primitive after which the block's move cannot stop. -/
theorem primitive_next_withCapacity {s : State} (hk : s.env.kind = .oracle) (c : Nat) (i : Instr) {f : State → State}
    (hf : CapacityBlind f) :
    primitive i (fun t => .next (f t)) (withCapacity c s) =
      mapNext (withCapacity c) (primitive i (fun t => .next (f t)) s) :=
  primitive_withCapacity hk c i fun t => congrArg Host.Outcome.next (hf c t)

/-- A command's meaning and, with the oracle, a primitive's do not read CAPACITY. -/
theorem exec_withCapacity {s : State} (hk : s.env.kind = .oracle) (c : Nat) (i : Instr) :
    exec i (withCapacity c s) = mapNext (withCapacity c) (exec i s) := by
  cases i with
  | writeByte addr len => exact congrArg Host.Outcome.next (accept_capacityBlind 0b00 addr 1 c s)
  | writeBlock addr len => exact congrArg Host.Outcome.next (accept_capacityBlind 0b01 addr len c s)
  | readByte addr len => exact congrArg Host.Outcome.next (accept_capacityBlind 0b10 addr 1 c s)
  | readBlock addr len => exact congrArg Host.Outcome.next (accept_capacityBlind 0b11 addr len c s)
  | busStart => exact primitive_next_withCapacity hk c _ afterStart_capacityBlind
  | busStop => exact primitive_next_withCapacity hk c _ afterStop_capacityBlind
  | busSendAddress a7 intent => exact primitive_next_withCapacity hk c _ afterSendAddress_capacityBlind
  | busSendByte b => exact primitive_next_withCapacity hk c _ afterSendByte_capacityBlind
  | busRecvByte => exact primitive_withCapacity hk c _ (afterRecvByte_withCapacity c)
  | busSetAck en => exact primitive_next_withCapacity hk c _ afterSetAck_capacityBlind
  | busClearNack => exact primitive_next_withCapacity hk c _ afterClearNack_capacityBlind
  | qStSent => exact primitive_next_withCapacity hk c _ afterStSent_capacityBlind
  | qAdDone => exact primitive_next_withCapacity hk c _ afterAdDone_capacityBlind
  | qAdNack => exact primitive_next_withCapacity hk c _ afterAdNack_capacityBlind
  | qTxEmpty => exact primitive_next_withCapacity hk c _ afterTxEmpty_capacityBlind
  | qRxFull => exact primitive_next_withCapacity hk c _ afterRxFull_capacityBlind
  | qCtBusy => exact primitive_next_withCapacity hk c _ afterCtBusy_capacityBlind
  | qCtMaster => exact primitive_next_withCapacity hk c _ afterCtMaster_capacityBlind

/-! ### A turn of the block and of the host -/

theorem runRequest_withCapacity {s : State} (hk : s.env.kind = .oracle) (c : Nat) (w : ReqWord) :
    runRequest w (withCapacity c s) = mapNext (withCapacity c) (runRequest w s) := by
  simp only [runRequest]
  split
  · exact exec_withCapacity hk c _
  · rfl

theorem blockTurn_withCapacity {s : State} (hk : s.env.kind = .oracle) (c : Nat) :
    blockTurn (withCapacity c s) = mapNext (withCapacity c) (blockTurn s) := by
  have hr : (withCapacity c s).nextRequest = s.nextRequest := rfl
  simp only [blockTurn, hr]
  split
  · exact runRequest_withCapacity hk c _
  · rfl
  · rfl
  · rfl

theorem hostWriteBuf_withCapacity (c i : Nat) (v : Byte) (s : State) :
    hostWriteBuf i v (withCapacity c s) = mapNext (withCapacity c) (hostWriteBuf i v s) := by
  simp only [hostWriteBuf, withCapacity_busy, bufWrite_withCapacity]
  split <;> rfl

theorem hostReadBuf_withCapacity (c i : Nat) (s : State) :
    hostReadBuf i (withCapacity c s) = mapNext (withCapacity c) (hostReadBuf i s) := by
  have hread : (withCapacity c s).bufRead i = s.bufRead i := rfl
  simp only [hostReadBuf, withCapacity_busy, hread]
  split
  · rfl
  · cases s.bufRead i <;> rfl

theorem outsideCall_withCapacity {s : State} (hk : s.env.kind = .oracle) (c : Nat) (w : ReqWord) :
    outsideCall w (withCapacity c s) = mapNext (withCapacity c) (outsideCall w s) := by
  simp only [outsideCall, withCapacity_busy, runRequest_withCapacity hk]
  split <;> rfl

/-- Settles O58, by whose turn it is: the block's turn and each move of the host give the same outcome whether CAPACITY is
changed before or after; the oracle is needed where a call is served. -/
theorem capacityIsNeverRead : Obligations.CapacityIsNeverRead := by
  intro s c hk
  simp only [step, turn, withCapacity_host]
  split
  next => exact blockTurn_withCapacity hk c
  next rest _ => rfl
  next n rest _ => exact blockTurn_withCapacity (s := { s with host := .pause n :: rest }) hk c
  next rest _ =>
    have hdone : (withCapacity c s).done = s.done := rfl
    by_cases hd : s.done = true
    · rw [if_pos (hdone.trans hd), if_pos hd]
      rfl
    · rw [if_neg (hdone ▸ hd), if_neg hd]
      exact blockTurn_withCapacity hk c
  next w rest _ => exact exec_withCapacity (s := { s with host := rest }) hk c _
  next rest _ => rfl
  next rest _ => rfl
  next rest _ => rfl
  next i v rest _ => exact hostWriteBuf_withCapacity c _ v { s with host := rest }
  next i rest _ => exact hostReadBuf_withCapacity c _ { s with host := rest }
  next w rest _ => exact outsideCall_withCapacity (s := { s with host := rest }) hk c w
  next b rest _ => rfl
  next rest _ => rfl

end Sys2Proof.Proofs.Scope
end

section
/-! One step taken apart: what the block does after its own call, phase by phase, and whose turn a step is. Every
whole-machine rule below goes by these cases. -/

namespace Sys2Proof.Proofs.Moves

open Sys2Proof Sys2Proof.Machine

/-! ### How the block goes on after a call -/

/-- How the block goes on after the call `i`; a command is no call (R26), and no lemma speaks of its entry. -/
def blockAfter : Instr → State → Host.Outcome State Fault Refusal
  | .busStart => fun u => .next (afterStart u)
  | .busStop => fun u => .next (afterStop u)
  | .busSendAddress _ _ => fun u => .next (afterSendAddress u)
  | .busSendByte _ => fun u => .next (afterSendByte u)
  | .busRecvByte => afterRecvByte
  | .busSetAck _ => fun u => .next (afterSetAck u)
  | .busClearNack => fun u => .next (afterClearNack u)
  | .qStSent => fun u => .next (afterStSent u)
  | .qAdDone => fun u => .next (afterAdDone u)
  | .qAdNack => fun u => .next (afterAdNack u)
  | .qTxEmpty => fun u => .next (afterTxEmpty u)
  | .qRxFull => fun u => .next (afterRxFull u)
  | .qCtBusy => fun u => .next (afterCtBusy u)
  | .qCtMaster => fun u => .next (afterCtMaster u)
  | .writeByte _ _ | .writeBlock _ _ | .readByte _ _ | .readBlock _ _ => .next

theorem exec_eq_primitive {i : Instr} (hi : i.isCommand = false) (s : State) :
    exec i s = primitive i (blockAfter i) s := by
  cases i <;> first | rfl | cases hi

/-- All that a primitive's meaning can do: the block's own call, or a call by someone else. -/
theorem exec_primitive_cases {s t : State} {i : Instr} (hi : i.isCommand = false) (h : exec i s = .next t) :
    (s.nextCall = .next (some i) ∧ blockAfter i (s.serve i) = .next t) ∨ (s.busy = false ∧ t = s.serve i) := by
  rw [exec_eq_primitive hi] at h
  exact (primitive_cases h).imp_right And.right

/-- A mapped outcome is a next state exactly where the operand was read. -/
theorem withOperand_next {α β : Type} {f : α → β} {o : Host.Outcome α Fault Refusal} {b : β}
    (h : withOperand f o = .next b) : ∃ a, o = .next a ∧ f a = b := by
  unfold withOperand at h
  split at h
  · next a => exact ⟨a, rfl, Host.Outcome.next.inj h⟩
  · cases h
  · cases h

theorem decodeCw_isCommand (w : CmdWord) : (decodeCw w).isCommand = true := by
  unfold decodeCw
  dsimp only
  split <;> rfl

/-- A command's meaning is its acceptance, with some operation, address and length. -/
theorem exec_command {i : Instr} (hi : i.isCommand = true) :
    ∃ op addr len, ∀ s : State, exec i s = .next (s.accept op addr len) := by
  cases i <;> first | exact ⟨_, _, _, fun _ => rfl⟩ | cases hi

/-- All that a write of CMD can do (R36, R37). -/
theorem accept_cases (op : BitVec 2) (addr len : Half) (s : State) :
    (s.busy = true ∧ s.accept op addr len = s) ∨
    (s.busy = false ∧ len = 0 ∧ s.accept op addr len =
      { s with op := op, addr := addr, cur := 0, rem := len, result := .ok, busy := false, done := true, phase := .idle,
               first := none }) ∨
    (s.busy = false ∧ len ≠ 0 ∧ s.accept op addr len =
      { s with op := op, addr := addr, cur := 0, rem := len, result := .ok, busy := true, done := false,
               chunk := BitVec.ofNat 16 (chunkLength addr.toNat len.toNat s.cfg.pageSize), phase := .u1Start,
               first := none }) := by
  unfold State.accept
  split
  · next hb => exact .inl ⟨hb, rfl⟩
  · next hb =>
    have hb : s.busy = false := by simpa using hb
    obtain ⟨hr, h⟩ | ⟨hr, h⟩ := State.loopTop_cases
      { s with op := op, addr := addr, cur := 0, rem := len, result := .ok, busy := true, done := false }
    · exact .inr (.inl ⟨hb, hr, h⟩)
    · exact .inr (.inr ⟨hb, hr, h⟩)

theorem isCommand_of_nextCall {s : State} {i : Instr} (h : s.nextCall = .next (some i)) : i.isCommand = false := by
  obtain ⟨w, hw⟩ := State.nextCall_request h
  cases i <;> first | rfl | cases hw

/-! ### The branches of the micro-program that the model's laws do not name -/

/-- All that the end of a unit's address wait can do (R142, R143). -/
theorem unitAddressed_cases (s : State) :
    (s.flag = true ∧ unitAddressed s = s.takeNacked.raise .notAcknowledged) ∨
    (s.flag = false ∧ unitAddressed s = s.takeNacked.goto .u3Check) := by
  cases h : s.flag <;> simp [unitAddressed, h]

/-- All that the end of the last address wait can do (R144, R161). -/
theorem addressSent_cases (s : State) :
    (s.isRead = true ∧ addressSent s = State.goto .r5Start { s with idx := 0 }) ∨
    (s.isRead = false ∧ addressSent s = State.goto .w5Data { s with idx := 0 }) := by
  cases h : s.isRead <;> simp [addressSent, h]

/-- All that the end of a data byte's wait can do (R145). -/
theorem dataSent_cases (s : State) :
    (s.idx + 1 < s.chunk ∧ dataSent s = State.goto .w5Data { s with idx := s.idx + 1 }) ∨
    dataSent s = State.goto .uStop { s with idx := s.idx + 1 } := by
  by_cases h : s.idx + 1 < s.chunk
  · exact .inl ⟨h, if_pos h⟩
  · exact .inr (if_neg h)

/-- All that the begin of a read's data phase can do (R164). -/
theorem startReading_cases (s : State) :
    (1 < s.chunk.toNat ∧ startReading s = State.goto .r7AckOn { s with idx := 0 }) ∨
    (s.chunk.toNat ≤ 1 ∧ startReading s = State.goto .r7AckOff { s with idx := 0 }) := by
  by_cases h : 1 < s.chunk.toNat
  · exact .inl ⟨h, by rw [startReading, if_pos h]⟩
  · exact .inr ⟨Nat.not_lt.1 h, by rw [startReading, if_neg h]⟩

/-- The three ways on after a received byte (R167). -/
theorem afterStored_cases (s : State) :
    afterStored s = State.goto .uStop { s with idx := s.idx + 1 } ∨
    (s.idx + 1 ≠ s.chunk ∧ s.idx + 1 = s.chunk - 1 ∧
      afterStored s = State.goto .r7AckOff { s with idx := s.idx + 1 }) ∨
    (s.idx + 1 ≠ s.chunk ∧ s.idx + 1 ≠ s.chunk - 1 ∧
      afterStored s = State.enterWait .r7Wait { s with idx := s.idx + 1 }) := by
  by_cases hend : s.idx + 1 = s.chunk
  · exact .inl (if_pos hend)
  · by_cases hlast : s.idx + 1 = s.chunk - 1
    · exact .inr (.inl ⟨hend, hlast, (if_neg hend).trans (if_pos hlast)⟩)
    · exact .inr (.inr ⟨hend, hlast, (if_neg hend).trans (if_neg hlast)⟩)

/-! ### The moves of the micro-program -/

/-- The wait that the call of a phase leads to (R121, R141 to R146, R162 to R168, R201 to R203). -/
def waitAfter : Phase → Option Phase
  | .u1Start => some .u1Wait
  | .u2Addr => some .u2Wait
  | .u4Hi => some .u4HiWait
  | .u4Lo => some .u4LoWait
  | .w5Data => some .w5Wait
  | .r5Start => some .r5Wait
  | .r6Addr => some .r6Wait
  | .r7AckOn | .r7AckOff => some .r7Wait
  | .uStop => some .uStopWait
  | .pStart => some .pStartWait
  | .pAddr => some .pAddrWait
  | .pStop => some .pStopWait
  | _ => none

/-- Where a wait goes when it is satisfied and nothing else happens. -/
def satisfiedTo : Phase → Option Phase
  | .u1Wait => some .u2Addr
  | .u4HiWait => some .u4Lo
  | .r5Wait => some .r6Addr
  | .r6Wait => some .r7Check
  | .r7Wait => some .r7Recv
  | .pStartWait => some .pAddr
  | _ => none

/-- The waits of a unit, whose time-out is raised. -/
def unitWaits : List Phase := [.u1Wait, .u2Wait, .u4HiWait, .u4LoWait, .w5Wait, .r5Wait, .r6Wait, .r7Wait]

/-- What the block does after its own call, from the state `u` in which the environment has served it. -/
inductive BlockMove (u : State) : State → Prop
  /-- an action's call leads to a wait -/
  | enterWait {q : Phase} (h : waitAfter u.phase = some q) : BlockMove u (u.enterWait q)
  /-- the first answer of a round of two queries -/
  | holdFirst (h : u.phase.twoQueries = true) : BlockMove u u.holdFirst
  /-- a round of a wait that goes on -/
  | again (h : u.phase.isWait = true) (hr : reached u.cfg.waitLimit (u.wcnt + 1) = false) : BlockMove u u.countRound
  | satisfied {q : Phase} (h : satisfiedTo u.phase = some q) : BlockMove u (u.countRound.goto q)
  | unitLate (h : u.phase ∈ unitWaits) : BlockMove u (u.countRound.raise .timeout)
  | pollLate (h : u.phase = .pStartWait ∨ u.phase = .pAddrWait) : BlockMove u u.countRound.pollLate
  /-- the address of a unit is answered (R142) -/
  | unitAddressed (h : u.phase = .u2Wait) : BlockMove u (unitAddressed u.countRound)
  /-- the stop of a unit whose NACKED stood at 1 in step 3 (R143) -/
  | refusedCheck (h : u.phase = .u3Check) (hn : u.nacked = true) :
      BlockMove u ((u.raise .notAcknowledged).enterWait .uStopWait)
  | notActive (h : u.phase = .u3Check ∨ u.phase = .r7Check) : BlockMove u (u.raise .busFault)
  | active (h : u.phase = .u3Check) : BlockMove u (u.goto .u4Hi)
  | startReading (h : u.phase = .r7Check) : BlockMove u (startReading u)
  | addressSent (h : u.phase = .u4LoWait) : BlockMove u (addressSent u.countRound)
  | dataSent (h : u.phase = .w5Wait) : BlockMove u (dataSent u.countRound)
  /-- the received byte is stored (R167) -/
  | received (h : u.phase = .r7Recv) (hb : u.bufIndex < u.cfg.bufSize) :
      BlockMove u (afterStored { u with buf := Memory.write bufBlank u.buf u.bufIndex u.rsp })
  | unitReturn (h : u.phase = .uStopWait) : BlockMove u u.countRound.unitReturn
  | stopLate (h : u.phase = .uStopWait) : BlockMove u (stopLate u.countRound)
  /-- the address of a poll attempt is answered (R202) -/
  | pollAddressed (h : u.phase = .pAddrWait) : BlockMove u (u.countRound.takeNacked.goto .pStop)
  | pollDecide (h : u.phase = .pStopWait) : BlockMove u u.countRound.pollDecide
  | pollStopLate (h : u.phase = .pStopWait) : BlockMove u (u.countRound.complete .timeout)
  | pollTop (h : u.phase = .pClear) : BlockMove u u.pollTop

/-- The end of a sample round is a move when each of its three ways on is one. -/
theorem endRound_move {u : State} {holds : Bool} {sat late : State → State} (hw : u.phase.isWait = true)
    (hs : BlockMove u (sat u.countRound)) (hl : BlockMove u (late u.countRound)) :
    BlockMove u (u.endRound holds sat late) := by
  obtain ⟨-, h⟩ | ⟨-, -, h⟩ | ⟨-, hr, h⟩ := State.endRound_cases holds sat late u <;> rw [h]
  · exact hs
  · exact hl
  · exact .again hw hr

/-- Of a round of two queries, the call made is one of the two (R120). -/
theorem eq_of_due {s : State} {q1 q2 i : Instr} (h : Host.Outcome.next (some (s.due q1 q2)) =
    (.next (some i) : Host.Outcome (Option Instr) Fault Refusal)) : i = q1 ∨ i = q2 := by
  cases h
  unfold State.due
  split
  · exact .inr rfl
  · exact .inl rfl

/-- The block's own call is followed by one of its moves. -/
theorem blockMove_of_after {u t : State} {i : Instr} (hc : u.nextCall = .next (some i))
    (h : blockAfter i u = .next t) : BlockMove u t := by
  have enters {p q : Phase} (hp : u.phase = p) (hq : waitAfter p = some q) : BlockMove u (u.enterWait q) :=
    .enterWait (hp ▸ hq)
  have holds {p : Phase} (hp : u.phase = p) (hq : p.twoQueries = true) : BlockMove u u.holdFirst :=
    .holdFirst (hp ▸ hq)
  have waits {p : Phase} {b : Bool} {sat late : State → State} (hp : u.phase = p) (hw : p.isWait = true)
      (hs : BlockMove u (sat u.countRound)) (hl : BlockMove u (late u.countRound)) :
      BlockMove u (u.endRound b sat late) := endRound_move (hp ▸ hw) hs hl
  have late {p : Phase} (hp : u.phase = p) (hw : p ∈ unitWaits) : BlockMove u (u.countRound.raise .timeout) :=
    .unitLate (hp ▸ hw)
  have goes {p q : Phase} (hp : u.phase = p) (hq : satisfiedTo p = some q) : BlockMove u (u.countRound.goto q) :=
    .satisfied (hp ▸ hq)
  cases hp : u.phase <;> simp only [State.nextCall, hp] at hc
  case idle => cases hc
  case u1Start | u2Addr | u4Hi | u4Lo | r5Start | r6Addr | r7AckOn | r7AckOff | uStop | pStart | pAddr | pStop =>
    cases hc
    cases h
    simp only [afterStart, afterSendAddress, afterSendByte, afterSetAck, afterStop, hp]
    exact enters hp rfl
  case w5Data =>
    unfold withOperand at hc
    split at hc <;> cases hc
    cases h
    simp only [afterSendByte, hp]
    exact enters hp rfl
  case u1Wait | u4HiWait | r5Wait | r6Wait | r7Wait =>
    cases hc
    cases h
    simp only [afterStSent, afterTxEmpty, afterAdDone, afterRxFull, hp]
    exact waits hp rfl (goes hp rfl) (late hp (by decide))
  case u4LoWait =>
    cases hc
    cases h
    simp only [afterTxEmpty, hp]
    exact waits hp rfl (.addressSent hp) (late hp (by decide))
  case w5Wait =>
    cases hc
    cases h
    simp only [afterTxEmpty, hp]
    exact waits hp rfl (.dataSent hp) (late hp (by decide))
  case pStartWait =>
    cases hc
    cases h
    simp only [afterStSent, hp]
    exact waits hp rfl (goes hp rfl) (.pollLate (.inl hp))
  case u2Wait =>
    obtain rfl | rfl := eq_of_due hc <;> cases h <;> simp only [afterAdDone, afterAdNack, hp]
    · exact holds hp rfl
    · exact waits hp rfl (.unitAddressed hp) (late hp (by decide))
  case pAddrWait =>
    obtain rfl | rfl := eq_of_due hc <;> cases h <;> simp only [afterAdDone, afterAdNack, hp]
    · exact holds hp rfl
    · exact waits hp rfl (.pollAddressed hp) (.pollLate (.inr hp))
  case uStopWait =>
    obtain rfl | rfl := eq_of_due hc <;> cases h <;> simp only [afterCtBusy, afterCtMaster, hp]
    · exact holds hp rfl
    · exact waits hp rfl (.unitReturn hp) (.stopLate hp)
  case pStopWait =>
    obtain rfl | rfl := eq_of_due hc <;> cases h <;> simp only [afterCtBusy, afterCtMaster, hp]
    · exact holds hp rfl
    · exact waits hp rfl (.pollDecide hp) (.pollStopLate hp)
  case r7Check =>
    obtain rfl | rfl := eq_of_due hc <;> cases h <;> simp only [afterCtBusy, afterCtMaster, hp]
    · exact holds hp rfl
    · split
      · exact .startReading hp
      · exact .notActive (.inr hp)
  case u3Check =>
    cases hn : u.nacked <;> simp only [hn, Bool.false_eq_true, if_true, if_false] at hc
    · obtain rfl | rfl := eq_of_due hc <;> cases h <;> simp only [afterCtBusy, afterCtMaster, hp]
      · exact holds hp rfl
      · split
        · exact .active hp
        · exact .notActive (.inl hp)
    · cases hc
      cases h
      simp only [afterStop, hp]
      exact .refusedCheck hp hn
  case r7Recv =>
    cases hc
    obtain ⟨v, hv, rfl⟩ := withOperand_next h
    obtain ⟨hb, rfl⟩ := State.bufWrite_cases hv
    exact .received hp hb
  case pClear =>
    cases hc
    cases h
    simp only [afterClearNack, hp]
    exact .pollTop hp

/-- The block's own step: the call is served, and one of its moves follows. -/
theorem blockMove_of_exec {s t : State} {i : Instr} (hc : s.nextCall = .next (some i)) (h : exec i s = .next t) :
    BlockMove (s.serve i) t := by
  rw [exec_eq_primitive (isCommand_of_nextCall hc), primitive_of_issues _ hc] at h
  exact blockMove_of_after (u := s.serve i) hc h

/-! ### Whose turn a step is -/

/-- What a step can be. -/
inductive Turn (s : State) : State → Prop
  /-- the block's own call, whether on its turn or made for it from outside -/
  | own {hs : List HostMove} {i : Instr} {t : State} (hc : s.nextCall = .next (some i))
      (hm : BlockMove (State.serve { s with host := hs } i) t) : Turn s t
  /-- a call by someone else while no command runs -/
  | outside (hs : List HostMove) (i : Instr) (hb : s.busy = false) : Turn s (State.serve { s with host := hs } i)
  | command (hs : List HostMove) (op : BitVec 2) (addr len : Half) : Turn s (State.accept op addr len { s with host := hs })
  | hostWrote {i : Half} {v : Byte} {rest : List HostMove} (hh : s.host = .writeBuf i v :: rest)
      (hi : i.toNat < s.cfg.bufSize) :
      Turn s { s with host := rest, buf := Memory.write bufBlank s.buf i.toNat v }
  | reset {rest : List HostMove} (hh : s.host = .reset :: rest) : Turn s (State.applyReset { s with host := rest })
  /-- a move that touches only what the host sees, the free values taken, and the device's presence -/
  | quiet (hs : List HostMove) (rdata : CmdWord) (draws : Nat) (present : Bool) :
      Turn s { s with host := hs, rdata := rdata, draws := draws, env := { s.env with present := present } }

theorem turn_of_blockTurn {s t : State} (hs : List HostMove) (h : blockTurn { s with host := hs } = .next t) :
    Turn s t := by
  obtain ⟨-, rfl⟩ | ⟨i, hc, he⟩ := blockTurn_cases h
  · exact .quiet hs s.rdata s.draws s.env.present
  · exact .own hc (blockMove_of_exec hc he)

theorem plainRequest_ok {code : BitVec 4} {arg : Byte} {i j : Instr} (h : plainRequest code arg i = .ok j) : j = i := by
  unfold plainRequest at h
  split at h <;> cases h
  rfl

/-- A request word that is decoded is no command's. -/
theorem isCommand_of_decodePw {w : ReqWord} {i : Instr} (h : decodePw w = .ok i) : i.isCommand = false := by
  unfold decodePw at h
  dsimp only at h
  split at h
  case h_3 | h_4 => cases h; rfl
  case h_6 => split at h <;> cases h; rfl
  case h_15 => cases h
  all_goals rw [plainRequest_ok h]; rfl

theorem turn_of_outsideCall {s t : State} {w : ReqWord} (hs : List HostMove)
    (h : outsideCall w { s with host := hs } = .next t) : Turn s t := by
  unfold outsideCall runRequest at h
  split at h
  · cases h
  · split at h
    · next i hi =>
      obtain ⟨hc, ha⟩ | ⟨hb, rfl⟩ := exec_primitive_cases (isCommand_of_decodePw hi) h
      · exact .own hc (blockMove_of_after (u := State.serve { s with host := hs } i) hc ha)
      · exact .outside hs i hb
    · cases h

/-- All that a step can be when it answers a next state. -/
theorem turn_of_step {s t : State} (h : step s = .next t) : Turn s t := by
  unfold step turn at h
  split at h
  next => exact turn_of_blockTurn s.host h
  next rest _ => cases h; exact .quiet rest s.rdata s.draws s.env.present
  next n rest _ => exact turn_of_blockTurn (.pause n :: rest) h
  next rest _ =>
    split at h
    · cases h; exact .quiet rest _ s.draws s.env.present
    · exact turn_of_blockTurn s.host h
  next w rest _ =>
    obtain ⟨op, addr, len, he⟩ := exec_command (decodeCw_isCommand w)
    cases (he _).symm.trans h
    exact .command rest op addr len
  next rest _ => cases h; exact .quiet rest _ _ s.env.present
  next rest _ => cases h; exact .quiet rest _ s.draws s.env.present
  next rest _ => cases h; exact .quiet rest s.rdata s.draws s.env.present
  next i v rest hh =>
    unfold hostWriteBuf at h
    split at h
    · cases h
    · obtain ⟨hi, rfl⟩ := State.bufWrite_cases h
      exact .hostWrote hh hi
  next i rest _ =>
    unfold hostReadBuf at h
    split at h
    · cases h
    · obtain ⟨v, -, rfl⟩ := withOperand_next h
      exact .quiet rest _ s.draws s.env.present
  next w rest _ => exact turn_of_outsideCall rest h
  next b rest _ => cases h; exact .quiet rest s.rdata s.draws b
  next rest hh => cases h; exact .reset hh

end Sys2Proof.Proofs.Moves
end

section
/-! The memories and the environment (10_state section 7): what a step leaves of BUF, of the device and of the acknowledge
failure flag. -/

namespace Sys2Proof.Proofs.Memories

open Sys2Proof Sys2Proof.Machine Sys2Proof.Claims Sys2Proof.Proofs.Moves

/-! ### A move of the block leaves the environment alone, and BUF but for a received byte -/

/-- The parameters, the environment and BUF are as they were. -/
structure SameStore (s t : State) : Prop where
  cfg : t.cfg = s.cfg
  env : t.env = s.env
  buf : t.buf = s.buf

theorem SameStore.trans {s t u : State} (h : SameStore s t) (h' : SameStore t u) : SameStore s u :=
  ⟨h'.cfg.trans h.cfg, h'.env.trans h.env, h'.buf.trans h.buf⟩

theorem loopTop_sameStore (s : State) : SameStore s s.loopTop := by
  obtain ⟨-, h⟩ | ⟨-, h⟩ := State.loopTop_cases s <;> rw [h] <;> exact ⟨rfl, rfl, rfl⟩

theorem pollTop_sameStore (s : State) : SameStore s s.pollTop := by
  obtain ⟨-, h⟩ | ⟨-, h⟩ := State.pollTop_cases s <;> rw [h] <;> exact ⟨rfl, rfl, rfl⟩

theorem unitReturn_sameStore (s : State) : SameStore s s.unitReturn := by
  obtain ⟨-, -, h⟩ | ⟨-, -, h⟩ | ⟨-, h⟩ := State.unitReturn_cases s <;> rw [h]
  · exact .trans (t := s.advance) ⟨rfl, rfl, rfl⟩ (loopTop_sameStore _)
  · rw [State.pollStart_eq]; exact ⟨rfl, rfl, rfl⟩
  · exact ⟨rfl, rfl, rfl⟩

theorem pollDecide_sameStore (s : State) : SameStore s s.pollDecide := by
  obtain ⟨-, -, h⟩ | ⟨-, -, h⟩ | ⟨-, h⟩ := State.pollDecide_cases s <;> rw [h]
  · exact ⟨rfl, rfl, rfl⟩
  · exact .trans (t := s.advance) ⟨rfl, rfl, rfl⟩ (loopTop_sameStore _)
  · exact ⟨rfl, rfl, rfl⟩

theorem unitAddressed_sameStore (s : State) : SameStore s (unitAddressed s) := by
  obtain ⟨-, h⟩ | ⟨-, h⟩ := unitAddressed_cases s <;> rw [h] <;> exact ⟨rfl, rfl, rfl⟩

theorem dataSent_sameStore (s : State) : SameStore s (dataSent s) := by
  obtain ⟨-, h⟩ | h := dataSent_cases s <;> rw [h] <;> exact ⟨rfl, rfl, rfl⟩

theorem afterStored_sameStore (s : State) : SameStore s (afterStored s) := by
  obtain h | ⟨-, -, h⟩ | ⟨-, -, h⟩ := afterStored_cases s <;> rw [h] <;> exact ⟨rfl, rfl, rfl⟩

/-- All that a move of the block does to what it shares with its surroundings. -/
theorem blockMove_store {u t : State} (h : BlockMove u t) :
    SameStore u t ∨ (u.phase = .r7Recv ∧ u.bufIndex < u.cfg.bufSize ∧
      SameStore { u with buf := Memory.write bufBlank u.buf u.bufIndex u.rsp } t) := by
  cases h with
  | received hp hb => exact .inr ⟨hp, hb, afterStored_sameStore _⟩
  | unitAddressed _ => exact .inl (.trans (t := u.countRound) ⟨rfl, rfl, rfl⟩ (unitAddressed_sameStore _))
  | dataSent _ => exact .inl (.trans (t := u.countRound) ⟨rfl, rfl, rfl⟩ (dataSent_sameStore _))
  | unitReturn _ => exact .inl (.trans (t := u.countRound) ⟨rfl, rfl, rfl⟩ (unitReturn_sameStore _))
  | stopLate _ =>
    exact .inl (.trans (t := { u.countRound with result := firstFailure u.result .timeout }) ⟨rfl, rfl, rfl⟩
      (unitReturn_sameStore _))
  | pollDecide _ => exact .inl (.trans (t := u.countRound) ⟨rfl, rfl, rfl⟩ (pollDecide_sameStore _))
  | pollTop _ => exact .inl (pollTop_sameStore _)
  | _ => exact .inl ⟨rfl, rfl, rfl⟩

theorem blockMove_cfg {u t : State} (h : BlockMove u t) : t.cfg = u.cfg := by
  obtain hs | ⟨-, -, hs⟩ := blockMove_store h <;> exact hs.cfg

theorem blockMove_env {u t : State} (h : BlockMove u t) : t.env = u.env := by
  obtain hs | ⟨-, -, hs⟩ := blockMove_store h <;> exact hs.env

theorem accept_sameStore (op : BitVec 2) (addr len : Half) (s : State) : SameStore s (s.accept op addr len) := by
  obtain ⟨-, h⟩ | ⟨-, -, h⟩ | ⟨-, -, h⟩ := accept_cases op addr len s <;> rw [h] <;> exact ⟨rfl, rfl, rfl⟩

/-! ### The canonical form of both memories -/

theorem memoryOk_of_sameStore {s t : State} (h : s.MemoryOk) (hs : SameStore s t) : t.MemoryOk := by
  obtain ⟨hcfg, henv, hbuf⟩ := hs
  exact ⟨hbuf ▸ h.buf, hbuf ▸ hcfg ▸ h.inside, henv ▸ h.dev⟩

theorem memoryOk_serve {s : State} (h : s.MemoryOk) (i : Instr) : (s.serve i).MemoryOk :=
  ⟨h.buf, h.inside, State.serve_wf h.dev i⟩

/-- A write inside BUF_SIZE keeps the form of BUF. -/
theorem memoryOk_writeBuf {s : State} (h : s.MemoryOk) {i : Nat} (hi : i < s.cfg.bufSize) (v : Byte) :
    ({ s with buf := Memory.write bufBlank s.buf i v } : State).MemoryOk where
  buf := Memory.wf_write h.buf i v
  inside c (hc : c ∈ Memory.write bufBlank s.buf i v) := by
    obtain hca | hc := Memory.mem_write hc
    · exact hca ▸ hi
    · exact h.inside c hc
  dev := h.dev

/-- Settles O48, by what the step is: the environment's call keeps the device's form, and the only writes of BUF are the
received byte and the host's, both inside BUF_SIZE. -/
theorem memoriesStayCanonical : Obligations.MemoriesStayCanonical := by
  intro s t h hstep
  have hhost (hs : List HostMove) : ({ s with host := hs } : State).MemoryOk := ⟨h.buf, h.inside, h.dev⟩
  cases turn_of_step hstep with
  | @own hs i _ hc hm =>
    have hu := memoryOk_serve (hhost hs) i
    obtain hs | ⟨-, hb, hs⟩ := blockMove_store hm
    · exact memoryOk_of_sameStore hu hs
    · exact memoryOk_of_sameStore (memoryOk_writeBuf hu hb _) hs
  | outside hs i _ => exact memoryOk_serve (hhost hs) i
  | command hs op addr len => exact memoryOk_of_sameStore (hhost hs) (accept_sameStore op addr len _)
  | @hostWrote i v rest _ hi => exact memoryOk_writeBuf (hhost rest) hi v
  | reset _ => exact ⟨rfl, nofun, h.dev⟩
  | quiet hs rdata draws present => exact ⟨h.buf, h.inside, h.dev⟩

/-- Settles O56, by what the step is: only the received byte, the host's write and reset touch BUF, and a write leaves every
other index alone. -/
theorem bufferWrittenOnlyByReceive : Obligations.BufferWrittenOnlyByReceive := by
  intro s t a hstep hne
  cases turn_of_step hstep with
  | own hc hm =>
    obtain hs | ⟨hp, -, hs⟩ := blockMove_store hm
    · exact absurd (by rw [hs.buf]; rfl) hne
    · refine .inr (.inr ⟨hp, ?_⟩)
      by_contra ha
      rw [hs.buf] at hne
      exact hne (Memory.read_write_other ha _ _ _)
  | outside => exact absurd rfl hne
  | command hs op addr len => exact absurd (by rw [(accept_sameStore op addr len _).buf]) hne
  | @hostWrote i v rest hh _ =>
    refine .inl ⟨i, v, rest, hh, ?_⟩
    by_contra ha
    exact hne (Memory.read_write_other ha _ _ _)
  | @reset rest hh => exact .inr (.inl ⟨rest, hh⟩)
  | quiet => exact absurd rfl hne

/-! ### The acknowledge failure flag -/

theorem adNack_commit : ∀ (l : List Host.Cell) (e : Env), (e.commit l).adNack = e.adNack
  | [], _ => rfl
  | (a, b) :: l, e => adNack_commit l (e.memWrite a b)

/-- No call but `bus_clear_nack` clears AD_NACK in the reference environment (R44, R75). -/
theorem adNack_act {c : Config} {i : Instr} {e : Env} (h : e.adNack = true) (hi : i ≠ .busClearNack) :
    (e.act c i).adNack = true := by
  cases i with
  | busClearNack => exact absurd rfl hi
  | busStop =>
    simp only [Env.act, Env.stop]
    split
    · exact (adNack_commit _ _).trans h
    · exact h
  | busSendAddress a7 intent =>
    simp only [Env.act, Env.sendAddress]
    split
    · split
      · cases intent <;> exact h
      · rfl
    · rfl
  | busSendByte b =>
    simp only [Env.act, Env.sendByte]
    split <;> exact h
  | busRecvByte =>
    simp only [Env.act, Env.recvByte]
    split
    · split <;> exact h
    · exact h
    · exact h
    · exact h
    · exact h
  | _ => exact h

/-- Settles O44: a command leaves the environment alone, a call moves it as R71 to R77 say, and the block's own move after
the call leaves it there. -/
theorem ackFailureFlagIsSticky : Obligations.AckFailureFlagIsSticky := by
  intro s t i hk hn hi h
  cases hcmd : i.isCommand
  · have hserved : (s.serve i).env.adNack = true := by
      simp only [State.serve_env, State.envAfter, hk]
      exact adNack_act hn hi
    obtain ⟨hc, ha⟩ | ⟨-, rfl⟩ := exec_primitive_cases hcmd h
    · rw [blockMove_env (blockMove_of_after (u := s.serve i) hc ha)]
      exact hserved
    · exact hserved
  · obtain ⟨op, addr, len, he⟩ := exec_command hcmd
    cases (he s).symm.trans h
    rw [(accept_sameStore op addr len s).env]
    exact hn

end Sys2Proof.Proofs.Memories
end

section
/-! The host's registers and the four commands (R34 to R40, R83, R84): acceptance, STATUS, the host's access to BUF, and the
stops of the block's own access. -/

namespace Sys2Proof.Proofs.HostInterface

open Sys2Proof Sys2Proof.Machine Sys2Proof.Claims Sys2Proof.Proofs.Moves Sys2Proof.Proofs.Memories

/-! ### Acceptance -/

/-- A command of at least one byte is accepted while BUSY = 0, and the first unit starts (R36, R181, R191). -/
theorem accept_of_idle {s : State} (op : BitVec 2) (addr : Half) {len : Half} (hb : s.busy = false) (hl : len ≠ 0) :
    s.accept op addr len =
      { s with op := op, addr := addr, cur := 0, rem := len, result := .ok, busy := true, done := false,
               chunk := BitVec.ofNat 16 (chunkLength addr.toNat len.toNat s.cfg.pageSize), phase := .u1Start,
               first := none } := by
  obtain ⟨hb', -⟩ | ⟨-, hl', -⟩ | ⟨-, -, h⟩ := accept_cases op addr len s
  · simp [hb] at hb'
  · exact absurd hl' hl
  · exact h

theorem accept_of_busy {s : State} (op : BitVec 2) (addr len : Half) (hb : s.busy = true) : s.accept op addr len = s :=
  if_pos hb

/-- Settles O12: both commands are acceptance with their operation and their length. -/
theorem blockCommandAccepted : Obligations.BlockCommandAccepted := fun _ addr _ hb hl =>
  ⟨congrArg Host.Outcome.next (accept_of_idle 0b01 addr hb hl),
    congrArg Host.Outcome.next (accept_of_idle 0b11 addr hb hl)⟩

/-- A unit of one byte crosses no page boundary, whatever the page size (R133). -/
theorem chunkLength_one (a : Nat) (c : Config) : chunkLength a 1 c.pageSize = 1 := by
  have hpos : 0 < c.pageSize := Nat.two_pow_pos _
  have hlt := Nat.mod_lt a hpos
  unfold chunkLength
  omega

/-- Settles O13: acceptance with length 1, whose chunk is 1. -/
theorem byteCommandAccepted : Obligations.ByteCommandAccepted := by
  intro s addr len hb
  have accepted (op : BitVec 2) : s.accept op addr 1 =
      { s with op := op, addr := addr, cur := 0, rem := 1, result := .ok, busy := true, done := false, chunk := 1,
               phase := .u1Start, first := none } := by
    have hchunk : BitVec.ofNat 16 (chunkLength addr.toNat (1 : Half).toNat s.cfg.pageSize) = 1 :=
      congrArg (BitVec.ofNat 16) (chunkLength_one addr.toNat s.cfg)
    rw [accept_of_idle op addr hb (by decide), hchunk]
  exact ⟨congrArg Host.Outcome.next (accepted 0b00), congrArg Host.Outcome.next (accepted 0b10)⟩

/-- Settles O15: each command is acceptance, which does nothing while BUSY = 1. -/
theorem commandWhileBusyIgnored : Obligations.CommandWhileBusyIgnored := by
  intro s i hi hb
  obtain ⟨op, addr, len, h⟩ := exec_command hi
  rw [h s, accept_of_busy op addr len hb]

/-- Settles O16, by the three ways of acceptance: ignored, complete at once, a first unit. -/
theorem commandFrame : Obligations.CommandFrame := by
  intro s t i hi h
  obtain ⟨op, addr, len, he⟩ := exec_command hi
  cases (he s).symm.trans h
  obtain ⟨-, ha⟩ | ⟨-, -, ha⟩ | ⟨-, -, ha⟩ := accept_cases op addr len s <;> rw [ha] <;>
    exact ⟨rfl, rfl, rfl, rfl, rfl, rfl, rfl, rfl, rfl, rfl, rfl, rfl, fun _ => rfl, fun _ _ => rfl⟩

/-- Settles O5: the move at the head of the list is the step. -/
theorem stepRunsHostCommand : Obligations.StepRunsHostCommand := by
  intro s w rest h
  simp only [step, turn, h]

/-! ### STATUS -/

/-- The bits of STATUS, from the three registers it shows (R35). -/
theorem status_bits (code : BitVec 2) (done busy : Bool) :
    (code ++ BitVec.ofBool done ++ BitVec.ofBool busy : BitVec 4).getLsbD 0 = busy ∧
    (code ++ BitVec.ofBool done ++ BitVec.ofBool busy : BitVec 4).getLsbD 1 = done ∧
    (code ++ BitVec.ofBool done ++ BitVec.ofBool busy : BitVec 4).extractLsb' 2 2 = code := by
  revert code done busy
  decide

/-- Settles O10: the bits of the word, and the host's moves on it. -/
theorem statusRegister : Obligations.StatusRegister := by
  intro s
  obtain ⟨hbusy, hdone, hcode⟩ := status_bits s.result.code s.done s.busy
  refine ⟨hbusy, hdone, hcode.trans ?_, fun rest h => ?_, fun v rest h => ?_⟩
  · cases s.result <;> rfl
  · simp only [step, turn, h]
    rfl
  · simp only [step, turn, h]

/-! ### BUF -/

theorem bufRead_of_listed {s : State} {i : Nat} {v : Byte} (hi : i < s.cfg.bufSize)
    (hv : Memory.read bufBlank s.buf i = some v) : s.bufRead i = .next v := by
  simp only [State.bufRead, if_pos hi, hv]

theorem bufRead_of_blank {s : State} {i : Nat} (hi : i < s.cfg.bufSize) (hv : Memory.read bufBlank s.buf i = none) :
    s.bufRead i = .fault (.bufHoldsNoValue i) := by
  simp only [State.bufRead, if_pos hi, hv]

theorem bufRead_beyond {s : State} {i : Nat} (hi : s.cfg.bufSize ≤ i) :
    s.bufRead i = .refused (.bufIndexBeyondSize i) :=
  if_neg (Nat.not_lt.2 hi)

theorem bufWrite_beyond {s : State} {i : Nat} (hi : s.cfg.bufSize ≤ i) (v : Byte) :
    s.bufWrite i v = .refused (.bufIndexBeyondSize i) :=
  if_neg (Nat.not_lt.2 hi)

/-- The host's write of a byte of BUF, while BUSY = 0 (R39). -/
theorem hostWriteBuf_of_idle {s : State} {i : Nat} (hb : s.busy = false) (hi : i < s.cfg.bufSize) (v : Byte) :
    hostWriteBuf i v s = .next { s with buf := Memory.write bufBlank s.buf i v } := by
  rw [hostWriteBuf, if_neg (by simp [hb]), State.bufWrite, if_pos hi]

/-- The host's read of a byte of BUF that holds a value, while BUSY = 0 (R39). -/
theorem hostReadBuf_of_idle {s : State} {i : Nat} {v : Byte} (hb : s.busy = false) (hi : i < s.cfg.bufSize)
    (hv : Memory.read bufBlank s.buf i = some v) : hostReadBuf i s = .next { s with rdata := v.setWidth 34 } := by
  rw [hostReadBuf, if_neg (by simp [hb]), bufRead_of_listed hi hv]
  rfl

/-- Settles O11: both accesses are refused while BUSY = 1, and while BUSY = 0 the memory laws give what is read back. -/
theorem hostBufferAccess : Obligations.HostBufferAccess := by
  intro s i v rest
  refine ⟨fun hb hh => ?_, fun hb hh => ?_, fun hm hb hi hh => ?_⟩
  · simp only [step, turn, hh, hostWriteBuf, if_pos hb]
  · simp only [step, turn, hh, hostReadBuf, if_pos hb]
  · have hwrite : step s = .next { s with host := .readBuf i :: rest, buf := Memory.write bufBlank s.buf i.toNat v } := by
      simp only [step, turn, hh]
      exact hostWriteBuf_of_idle (s := { s with host := .readBuf i :: rest }) hb hi v
    exact ⟨_, _, hwrite, hostReadBuf_of_idle hb hi (Memory.read_write_same hm.buf _ v), rfl,
      fun a ha => Memory.read_write_other ha _ _ _⟩

/-! ### The block's access to BUF -/

/-- Settles O7: the request of W5_DATA stops as its read does, the call of R7_RECV as its write does. -/
theorem stepStopsAtMissingBufferByte : Obligations.StepStopsAtMissingBufferByte := by
  intro s hh
  have hturn : step s = blockTurn s := by simp only [step, turn, hh]
  refine ⟨fun hp hi hv => ?_, ?_⟩
  · have hread : s.bufRead s.bufIndex = .fault (.bufHoldsNoValue s.bufIndex) := bufRead_of_blank hi hv
    simp only [hturn, blockTurn, State.nextRequest, State.nextCall, hp, hread, withOperand]
    rfl
  · rintro (hp | hp) hi
    · have hread : s.bufRead s.bufIndex = .refused (.bufIndexBeyondSize s.bufIndex) := bufRead_beyond hi
      simp only [hturn, blockTurn, State.nextRequest, State.nextCall, hp, hread, withOperand]
      rfl
    · have hc : s.nextCall = .next (some .busRecvByte) := by simp only [State.nextCall, hp]
      have hwrite : (s.serve .busRecvByte).bufWrite s.bufIndex (s.serve .busRecvByte).rsp =
          .refused (.bufIndexBeyondSize s.bufIndex) := bufWrite_beyond (s := s.serve .busRecvByte) hi _
      calc step s = blockTurn s := hturn
        _ = exec .busRecvByte s := blockTurn_of_call hc
        _ = afterRecvByte (s.serve .busRecvByte) := primitive_of_issues afterRecvByte hc
        _ = .refused (.bufIndexBeyondSize s.bufIndex) := congrArg (withOperand afterStored) hwrite

end Sys2Proof.Proofs.HostInterface
end

section
/-! The control invariant (R24, R32, R33, R36, R38, R121, R143, R165, R166, R182, R204, R231): what it says phase by phase,
and that every step keeps it. -/

namespace Sys2Proof.Proofs.ControlInvariant

open Sys2Proof Sys2Proof.Machine Sys2Proof.Claims Sys2Proof.Proofs.Moves Sys2Proof.Proofs.Memories

/-! ### What the invariant says in each phase -/

/-- What holds of a running command in every phase. -/
structure Running (s : State) : Prop where
  phase : s.phase ≠ .idle
  busy : s.busy = true
  done : s.done = false
  bytesLeft : s.rem ≠ 0
  chunkIs : s.chunk = s.nextChunk
  cursor : s.cur.toNat + s.rem.toNat ≤ 65535

/-- What holds in the phase `p`, of the operation, the failure recorded, the data byte and the acknowledge control. -/
def AtPhase (s : State) (p : Phase) : Prop :=
  match p with
  | .idle | .uStop | .uStopWait => True
  | .u1Start | .u1Wait | .u2Addr | .u2Wait | .u4Hi | .u4HiWait | .u4Lo | .u4LoWait => s.result = .ok
  | .u3Check => s.result = .ok ∧ s.nacked = false
  | .w5Data | .w5Wait => s.result = .ok ∧ s.isRead = false ∧ s.idx < s.chunk
  | .r5Start | .r5Wait | .r6Addr | .r6Wait | .r7Check => s.result = .ok ∧ s.isRead = true
  | .r7AckOn => s.result = .ok ∧ s.isRead = true ∧ s.idx = 0 ∧ s.idx.toNat + 1 < s.chunk.toNat
  | .r7AckOff => s.result = .ok ∧ s.isRead = true ∧ s.idx.toNat + 1 = s.chunk.toNat
  | .r7Wait | .r7Recv =>
    s.result = .ok ∧ s.isRead = true ∧ s.idx < s.chunk ∧ s.env.ackEn = decide (s.idx.toNat + 1 < s.chunk.toNat)
  | .pStart | .pStartWait | .pAddr | .pAddrWait => s.isRead = false ∧ s.result = .ok
  | .pStop | .pStopWait => s.isRead = false ∧ (s.result = .ok ∨ s.result = .timeout)
  | .pClear => s.isRead = false ∧ s.result = .ok ∧ s.nacked = true

/-- WCNT and PCNT are within their bounds (R32, R33). -/
def Bounded (s : State) : Prop :=
  (∀ n, s.cfg.waitLimit.value = some n → s.wcnt ≤ n) ∧ ∀ n, s.cfg.pollLimit.value = some n → s.pcnt ≤ n

theorem control_running {s : State} (h : s.Control) (hp : s.phase ≠ .idle) : Running s :=
  have hb := h.busyIff.2 hp
  ⟨hp, hb, h.notBoth hb, h.bytesLeft hb, h.chunkIs hb, h.cursor hb⟩

theorem control_atPhase {s : State} (h : s.Control) : AtPhase s s.phase := by
  have ok {p : Phase} (hp : s.phase = p) (hn : p ≠ .idle) (hs : p.isStop = false) : s.result = .ok :=
    h.okSoFar (h.busyIff.2 (hp ▸ hn)) (hp ▸ hs)
  have read {p : Phase} (hp : s.phase = p) (hr : p.onlyRead = true) : s.isRead = true := h.readPhase (hp ▸ hr)
  have write {p : Phase} (hp : s.phase = p) (hw : p.onlyWrite = true) : s.isRead = false := h.writePhase (hp ▸ hw)
  have index {p : Phase} (hp : s.phase = p) (hd : p.inData = true) : s.idx < s.chunk := h.index (hp ▸ hd)
  have ack (hp : s.phase = .r7Wait ∨ s.phase = .r7Recv) (hi : s.idx < s.chunk) :
      s.env.ackEn = decide (s.idx.toNat + 1 < s.chunk.toNat) := by
    by_cases hlast : s.idx.toNat + 1 < s.chunk.toNat
    · rw [h.ackOn hp hlast, decide_eq_true hlast]
    · rw [h.ackOff hp (by bv_omega), decide_eq_false hlast]
  cases hp : s.phase
  case idle | uStop | uStopWait => trivial
  case u1Start | u1Wait | u2Addr | u2Wait | u4Hi | u4HiWait | u4Lo | u4LoWait => exact ok hp nofun rfl
  case u3Check => exact ⟨ok hp nofun rfl, h.acked hp⟩
  case w5Data | w5Wait => exact ⟨ok hp nofun rfl, write hp rfl, index hp rfl⟩
  case r5Start | r5Wait | r6Addr | r6Wait | r7Check => exact ⟨ok hp nofun rfl, read hp rfl⟩
  case r7AckOn => exact ⟨ok hp nofun rfl, read hp rfl, h.ackOnAt hp⟩
  case r7AckOff => exact ⟨ok hp nofun rfl, read hp rfl, h.ackOffAt hp⟩
  case r7Wait => exact ⟨ok hp nofun rfl, read hp rfl, index hp rfl, ack (.inl hp) (index hp rfl)⟩
  case r7Recv => exact ⟨ok hp nofun rfl, read hp rfl, index hp rfl, ack (.inr hp) (index hp rfl)⟩
  case pStart | pStartWait | pAddr | pAddrWait => exact ⟨write hp rfl, ok hp nofun rfl⟩
  case pStop | pStopWait => exact ⟨write hp rfl, h.pollResult (by rw [hp]; rfl)⟩
  case pClear => exact ⟨write hp rfl, ok hp nofun rfl, h.refusedAttempt hp⟩

/-! ### The invariant from its parts -/

theorem atPhase_isRead {s : State} {p : Phase} (h : AtPhase s p) (hp : p.onlyRead = true) : s.isRead = true := by
  cases p <;> simp_all [AtPhase, Phase.onlyRead]

theorem atPhase_isWrite {s : State} {p : Phase} (h : AtPhase s p) (hp : p.onlyWrite = true) : s.isRead = false := by
  cases p <;> simp_all [AtPhase, Phase.onlyWrite, Phase.inPoll]

theorem atPhase_index {s : State} {p : Phase} (h : AtPhase s p) (hp : p.inData = true) : s.idx < s.chunk := by
  cases p <;> simp_all [AtPhase, Phase.inData] <;> bv_omega

theorem atPhase_ok {s : State} {p : Phase} (h : AtPhase s p) (hn : p ≠ .idle) (hp : p.isStop = false) :
    s.result = .ok := by
  cases p <;> simp_all [AtPhase, Phase.isStop]

theorem atPhase_pollResult {s : State} {p : Phase} (h : AtPhase s p) (hp : p.inPoll = true) :
    s.result = .ok ∨ s.result = .timeout := by
  cases p <;> simp_all [AtPhase, Phase.inPoll]

theorem atPhase_ack {s : State} {p : Phase} (h : AtPhase s p) (hp : p = .r7Wait ∨ p = .r7Recv) :
    s.env.ackEn = decide (s.idx.toNat + 1 < s.chunk.toNat) := by
  obtain rfl | rfl := hp <;> exact h.2.2.2

theorem control_of_running {s : State} (hr : Running s) (ha : AtPhase s s.phase)
    (hs : s.first.isSome = true → s.phase.twoQueries = true) (hw : s.phase.isWait = true → s.roundDue)
    (hb : Bounded s) : s.Control where
  busyIff := iff_of_true hr.busy hr.phase
  notBoth _ := hr.done
  bytesLeft _ := hr.bytesLeft
  chunkIs _ := hr.chunkIs
  cursor _ := hr.cursor
  readPhase := atPhase_isRead ha
  writePhase := atPhase_isWrite ha
  index := atPhase_index ha
  ackOnAt hp := by rw [hp] at ha; exact ha.2.2
  ackOffAt hp := by rw [hp] at ha; exact ha.2.2
  ackOn hp hi := by rw [atPhase_ack ha hp, decide_eq_true hi]
  ackOff hp hi := by rw [atPhase_ack ha hp, decide_eq_false (by omega)]
  okSoFar _ := atPhase_ok ha hr.phase
  pollResult := atPhase_pollResult ha
  acked hp := by rw [hp] at ha; exact ha.2
  refusedAttempt hp := by rw [hp] at ha; exact ha.2.2
  sample := hs
  waiting := hw
  waitCount := hb.1
  pollCount := hb.2

/-- In `IDLE` the invariant asks nothing but BUSY = 0, no held sample and the bounds of the counters. -/
theorem control_of_idle {s : State} (hp : s.phase = .idle) (hb : s.busy = false) (hf : s.first = none)
    (hc : Bounded s) : s.Control := by
  constructor
  case waitCount => exact hc.1
  case pollCount => exact hc.2
  all_goals simp [hp, hb, hf, Phase.onlyRead, Phase.onlyWrite, Phase.inPoll, Phase.inData, Phase.isWait]

/-! ### Moves inside a unit or an attempt -/

/-- A bound is at least 1, so a wait just entered has a round due (R11, R32). -/
theorem limit_pos {l : Limit} {n : Nat} (h : l.value = some n) : 0 < n := by
  cases l <;> cases h
  exact Nat.succ_pos _

/-- A phase that is no wait is come to without a held sample. -/
theorem control_goes {t : State} (hr : Running t) (ha : AtPhase t t.phase) (hf : t.first = none)
    (hw : t.phase.isWait = false) (hb : Bounded t) : t.Control :=
  control_of_running hr ha (by simp [hf]) (by simp [hw]) hb

theorem control_enterWait {u : State} {q : Phase} (hr : Running u) (hq : q ≠ .idle) (ha : AtPhase u q)
    (hb : Bounded u) : (u.enterWait q).Control :=
  control_of_running { hr with phase := hq } ha nofun (fun _ _ hn => limit_pos hn) ⟨fun _ _ => Nat.zero_le _, hb.2⟩

/-- The round just ended was within the bound (R121). -/
theorem bounded_countRound {u : State} (hu : u.Control) (hw : u.phase.isWait = true) : Bounded u.countRound :=
  ⟨hu.waiting hw, hu.pollCount⟩

/-- A failure leads to the stop step, where nothing is asked of RESULT. -/
theorem control_raise {u : State} (hr : Running u) (hb : Bounded u) (e : Result) : (u.raise e).Control :=
  control_goes { hr with phase := nofun } trivial rfl rfl hb

theorem atPhase_waitAfter {u : State} {q : Phase} (ha : AtPhase u u.phase) (h : waitAfter u.phase = some q)
    (hon : u.phase = .r7AckOn → u.env.ackEn = true) (hoff : u.phase = .r7AckOff → u.env.ackEn = false) :
    AtPhase u q := by
  cases hp : u.phase <;> rw [hp] at ha h <;> cases h
  case r7AckOn =>
    obtain ⟨hok, hread, hidx, hlt⟩ := ha
    exact ⟨hok, hread, by bv_omega, by rw [hon hp, decide_eq_true hlt]⟩
  case r7AckOff =>
    obtain ⟨hok, hread, hlast⟩ := ha
    exact ⟨hok, hread, by bv_omega, by rw [hoff hp, decide_eq_false (by omega)]⟩
  all_goals exact ha

theorem atPhase_satisfiedTo {u : State} {q : Phase} (ha : AtPhase u u.phase) (h : satisfiedTo u.phase = some q) :
    AtPhase u q := by
  cases hp : u.phase <;> rw [hp] at ha h <;> cases h <;> exact ha

/-! ### The chunk of a running unit (R130, R182, R192) -/

theorem nextChunk_toNat (s : State) :
    s.nextChunk.toNat = min s.rem.toNat (s.cfg.pageSize - s.addr.toNat % s.cfg.pageSize) := by
  have hrem := s.rem.isLt
  simp only [State.nextChunk, chunkLength, BitVec.toNat_ofNat]
  exact Nat.mod_eq_of_lt (by omega)

/-- A running unit has at least one byte and no more than are left, and ends inside its page. -/
theorem running_chunk {s : State} (h : Running s) :
    1 ≤ s.chunk.toNat ∧ s.chunk.toNat ≤ s.rem.toNat ∧
    s.addr.toNat % s.cfg.pageSize + s.chunk.toNat ≤ s.cfg.pageSize := by
  have hrem : 0 < s.rem.toNat := Nat.pos_of_ne_zero fun h0 => h.bytesLeft (BitVec.eq_of_toNat_eq h0)
  have hmod : s.addr.toNat % s.cfg.pageSize < s.cfg.pageSize := Nat.mod_lt _ (Nat.two_pow_pos _)
  rw [h.chunkIs, nextChunk_toNat]
  omega

/-- Settles O47: a command that runs has a chunk of ADDR and REM. -/
theorem unitStaysInsidePage : Obligations.UnitStaysInsidePage := by
  intro s h hb
  obtain ⟨hone, hrem, hpage⟩ := running_chunk (control_running h (h.busyIff.1 hb))
  exact ⟨hone, hrem, by omega, hpage⟩

/-! ### The loops and completion -/

theorem control_complete {s : State} (hb : Bounded s) (r : Result) : (s.complete r).Control :=
  control_of_idle rfl rfl rfl hb

/-- The top of a block loop completes the command or starts a unit (R181, R191). -/
theorem control_loopTop {s : State} (hbusy : s.busy = true) (hdone : s.done = false) (hok : s.result = .ok)
    (hcur : s.cur.toNat + s.rem.toNat ≤ 65535) (hb : Bounded s) : s.loopTop.Control := by
  obtain ⟨-, h⟩ | ⟨hrem, h⟩ := State.loopTop_cases s <;> rw [h]
  · exact control_complete hb .ok
  · exact control_goes ⟨nofun, hbusy, hdone, hrem, rfl, hcur⟩ hok rfl rfl hb

/-- The advance moves CHUNK bytes from REM to CUR, so the cursor's bound stays (R136). -/
theorem control_advance_loopTop {s : State} (hr : Running s) (hok : s.result = .ok) (hb : Bounded s) :
    s.advance.loopTop.Control := by
  have hcur : (s.cur + s.chunk).toNat + (s.rem - s.chunk).toNat ≤ 65535 := by
    obtain ⟨-, hchunk, -⟩ := running_chunk hr
    have hcursor := hr.cursor
    bv_omega
  exact control_loopTop (s := s.advance) hr.busy hr.done hok hcur hb

/-- The top of the poll loop ends the command, or counts one more attempt, within the bound (R33, R200). -/
theorem control_pollTop {s : State} (hr : Running s) (hw : s.isRead = false) (hok : s.result = .ok) (hb : Bounded s) :
    s.pollTop.Control := by
  obtain ⟨-, h⟩ | ⟨hlim, h⟩ := State.pollTop_cases s <;> rw [h]
  · exact control_complete hb .timeout
  · exact control_goes { hr with phase := nofun } ⟨hw, hok⟩ rfl rfl ⟨hb.1, not_reached_iff.1 hlim⟩

theorem control_unitReturn {s : State} (hr : Running s) (hb : Bounded s) : s.unitReturn.Control := by
  obtain ⟨hok, -, h⟩ | ⟨hok, hw, h⟩ | ⟨-, h⟩ := State.unitReturn_cases s <;> rw [h]
  · exact control_advance_loopTop hr hok hb
  · exact control_pollTop (s := { s with pcnt := 0 }) { hr with } hw hok ⟨hb.1, fun _ _ => Nat.zero_le _⟩
  · exact control_complete hb s.result

theorem control_pollDecide {s : State} (hr : Running s) (hw : s.isRead = false) (hb : Bounded s) :
    s.pollDecide.Control := by
  obtain ⟨hok, hn, h⟩ | ⟨hok, -, h⟩ | ⟨-, h⟩ := State.pollDecide_cases s <;> rw [h]
  · exact control_goes { hr with phase := nofun } ⟨hw, hok, hn⟩ rfl rfl hb
  · exact control_advance_loopTop hr hok hb
  · exact control_complete hb .timeout

/-! ### The data phases -/

theorem control_addressSent {s : State} (hr : Running s) (hok : s.result = .ok) (hb : Bounded s) :
    (addressSent s).Control := by
  have hidx : 0 < s.chunk := by
    have hone := (running_chunk hr).1
    bv_omega
  obtain ⟨hread, h⟩ | ⟨hread, h⟩ := addressSent_cases s <;> rw [h]
  · exact control_goes { hr with phase := nofun } ⟨hok, hread⟩ rfl rfl hb
  · exact control_goes { hr with phase := nofun } ⟨hok, hread, hidx⟩ rfl rfl hb

theorem control_dataSent {s : State} (hr : Running s) (hok : s.result = .ok) (hw : s.isRead = false) (hb : Bounded s) :
    (dataSent s).Control := by
  obtain ⟨hlt, h⟩ | h := dataSent_cases s <;> rw [h]
  · exact control_goes { hr with phase := nofun } ⟨hok, hw, hlt⟩ rfl rfl hb
  · exact control_goes { hr with phase := nofun } trivial rfl rfl hb

theorem control_startReading {s : State} (hr : Running s) (hok : s.result = .ok) (hread : s.isRead = true)
    (hb : Bounded s) : (startReading s).Control := by
  obtain ⟨hmany, h⟩ | ⟨hfew, h⟩ := startReading_cases s <;> rw [h]
  · exact control_goes { hr with phase := nofun } ⟨hok, hread, rfl, show 0 + 1 < s.chunk.toNat from hmany⟩ rfl rfl hb
  · have hone : 0 + 1 = s.chunk.toNat := Nat.le_antisymm (running_chunk hr).1 hfew
    exact control_goes { hr with phase := nofun } ⟨hok, hread, hone⟩ rfl rfl hb

/-- After a received byte the next is the last exactly when acknowledgement goes off for it (R166, R167). -/
theorem control_afterStored {s : State} (hr : Running s) (ha : AtPhase s .r7Recv) (hb : Bounded s) :
    (afterStored s).Control := by
  obtain ⟨hok, hread, hlt, hack⟩ := ha
  obtain h | ⟨hne, hlast, h⟩ | ⟨hne, hnot, h⟩ := afterStored_cases s <;> rw [h]
  · exact control_goes { hr with phase := nofun } trivial rfl rfl hb
  · have hone : (s.idx + 1).toNat + 1 = s.chunk.toNat := by bv_omega
    exact control_goes { hr with phase := nofun } ⟨hok, hread, hone⟩ rfl rfl hb
  · have hin : s.idx + 1 < s.chunk := by bv_omega
    have hmore : s.idx.toNat + 1 < s.chunk.toNat := by bv_omega
    have hnext : (s.idx + 1).toNat + 1 < s.chunk.toNat := by bv_omega
    have hack' : s.env.ackEn = decide ((s.idx + 1).toNat + 1 < s.chunk.toNat) := by
      rw [hack, decide_eq_true hmore, decide_eq_true hnext]
    exact control_enterWait (u := { s with idx := s.idx + 1 }) { hr with } nofun ⟨hok, hread, hin, hack'⟩ hb

/-- The address of a unit is answered: refused, it is a failure; acknowledged, step 3 finds NACKED = 0 (R142, R143). -/
theorem control_unitAddressed {s : State} (hr : Running s) (hok : s.result = .ok) (hb : Bounded s) :
    (unitAddressed s).Control := by
  obtain ⟨-, h⟩ | ⟨hflag, h⟩ := unitAddressed_cases s <;> rw [h]
  · exact control_raise (u := s.takeNacked) { hr with } hb .notAcknowledged
  · exact control_goes { hr with phase := nofun } ⟨hok, hflag⟩ rfl rfl hb

/-! ### Every step -/

theorem blockMove_ne_idle {u t : State} (h : BlockMove u t) : u.phase ≠ .idle := by
  intro hp
  cases h <;> simp_all [waitAfter, satisfiedTo, unitWaits, Phase.twoQueries, Phase.isWait]

theorem isWait_of_mem_unitWaits {p : Phase} (h : p ∈ unitWaits) : p.isWait = true := by
  revert p
  decide

theorem isWait_of_satisfiedTo {p q : Phase} (h : satisfiedTo p = some q) :
    p.isWait = true ∧ q.isWait = false ∧ q ≠ .idle := by
  cases p <;> cases h <;> exact ⟨rfl, rfl, nofun⟩

theorem waitAfter_ne_idle {p q : Phase} (h : waitAfter p = some q) : q ≠ .idle := by
  cases p <;> cases h <;> nofun

/-- The block's moves keep the invariant, where the call has set the acknowledge control (R107). -/
theorem blockMove_control {u t : State} (hu : u.Control) (hon : u.phase = .r7AckOn → u.env.ackEn = true)
    (hoff : u.phase = .r7AckOff → u.env.ackEn = false) (hm : BlockMove u t) : t.Control := by
  have hr := control_running hu (blockMove_ne_idle hm)
  have ha := control_atPhase hu
  have hb : Bounded u := ⟨hu.waitCount, hu.pollCount⟩
  have hround {p : Phase} (hp : u.phase = p) (hw : p.isWait = true) : Bounded u.countRound :=
    bounded_countRound hu (hp ▸ hw)
  have at' {p : Phase} (hp : u.phase = p) : AtPhase u p := hp ▸ ha
  have hcount : Running u.countRound := { hr with }
  cases hm with
  | enterWait h => exact control_enterWait hr (waitAfter_ne_idle h) (atPhase_waitAfter ha h hon hoff) hb
  | holdFirst h => exact { hu with sample := fun _ => h }
  | again h hl => exact control_of_running hcount ha nofun (fun _ => not_reached_iff.1 hl) (bounded_countRound hu h)
  | @satisfied q h =>
    obtain ⟨hw, hq, hne⟩ := isWait_of_satisfiedTo h
    have hq' : AtPhase u q := atPhase_satisfiedTo ha h
    exact control_goes { hr with phase := hne } hq' rfl hq (bounded_countRound hu hw)
  | unitLate h => exact control_raise hcount (bounded_countRound hu (isWait_of_mem_unitWaits h)) .timeout
  | pollLate h =>
    obtain h | h := h
    all_goals exact control_goes { hr with phase := nofun } ⟨(at' h).1, .inr rfl⟩ rfl rfl (hround h rfl)
  | unitAddressed h => exact control_unitAddressed hcount (at' h) (hround h rfl)
  | refusedCheck h hn => exact absurd (hu.acked h) (by simp [hn])
  | notActive _ => exact control_raise hr hb .busFault
  | active h => exact control_goes { hr with phase := nofun } (at' h).1 rfl rfl hb
  | startReading h => exact control_startReading hr (at' h).1 (at' h).2 hb
  | addressSent h => exact control_addressSent hcount (at' h) (hround h rfl)
  | dataSent h => exact control_dataSent hcount (at' h).1 (at' h).2.1 (hround h rfl)
  | received h _ => exact control_afterStored { hr with } (at' h) hb
  | unitReturn h => exact control_unitReturn hcount (hround h rfl)
  | stopLate h => exact control_unitReturn { hcount with } (hround h rfl)
  | pollAddressed h =>
    exact control_goes { hr with phase := nofun } ⟨(at' h).1, .inl (at' h).2⟩ rfl rfl (hround h rfl)
  | pollDecide h => exact control_pollDecide hcount (at' h).1 (hround h rfl)
  | pollStopLate h => exact control_complete (hround h rfl) .timeout
  | pollTop h => exact control_pollTop hr (at' h).1 (at' h).2.1 hb

/-- Only in two phases does the invariant speak of the environment, of ACK_EN, which their calls leave (R29). -/
theorem control_serve {s : State} {i : Instr} (h : s.Control)
    (hack : s.phase = .r7Wait ∨ s.phase = .r7Recv → ∀ en, i ≠ .busSetAck en) : (s.serve i).Control :=
  { h with
    ackOn := fun hp hi => by rw [State.serve_ackEn (hack hp)]; exact h.ackOn hp hi
    ackOff := fun hp hi => by rw [State.serve_ackEn (hack hp)]; exact h.ackOff hp hi }

/-- The block's own call, with the move after it. -/
theorem control_own {s t : State} {i : Instr} (h : s.Control) (hc : s.nextCall = .next (some i))
    (hm : BlockMove (s.serve i) t) : t.Control := by
  refine blockMove_control (control_serve h ?_) (fun hp => ?_) (fun hp => ?_) hm
  · rintro (hp | hp) en rfl <;> simp [State.nextCall, hp] at hc
  · have hi : .busSetAck true = i := by simpa [State.nextCall, show s.phase = .r7AckOn from hp] using hc
    rw [← hi, State.serve_setAck]
  · have hi : .busSetAck false = i := by simpa [State.nextCall, show s.phase = .r7AckOff from hp] using hc
    rw [← hi, State.serve_setAck]

/-- Settles O49, by what the step is: the block's moves keep the invariant phase by phase; outside a command the phase is
`IDLE`, where it asks nothing of the registers. -/
theorem controlIsInvariant : Obligations.ControlIsInvariant := by
  intro s t h hstep
  have hhost (hs : List HostMove) : ({ s with host := hs } : State).Control := { h with }
  cases turn_of_step hstep with
  | @own hs i _ hc hm => exact control_own (hhost hs) hc hm
  | outside hs i hb =>
    refine control_serve (hhost hs) fun hp => ?_
    have hbusy : s.busy = true := h.busyIff.2 (by obtain hp | hp := hp <;> exact hp ▸ nofun)
    simp [hb] at hbusy
  | command hs op addr len =>
    obtain ⟨-, ha⟩ | ⟨-, -, ha⟩ | ⟨-, hl, ha⟩ := accept_cases op addr len { s with host := hs } <;> rw [ha]
    · exact hhost hs
    · exact control_of_idle rfl rfl rfl ⟨h.waitCount, h.pollCount⟩
    · have hlen : (0 : Half).toNat + len.toNat ≤ 65535 := by bv_omega
      exact control_goes ⟨nofun, rfl, rfl, hl, rfl, hlen⟩ rfl rfl rfl ⟨h.waitCount, h.pollCount⟩
  | hostWrote hh hi => exact { h with }
  | reset hh => exact control_of_idle rfl rfl rfl ⟨fun _ _ => Nat.zero_le _, fun _ _ => Nat.zero_le _⟩
  | quiet hs rdata draws present => exact { h with }

end Sys2Proof.Proofs.ControlInvariant
end

section
/-! Where PHASE goes, and where a command ends (R27, R38, R147, R231, R234). -/

namespace Sys2Proof.Proofs.PhaseOrder

open Sys2Proof Sys2Proof.Machine Sys2Proof.Claims Sys2Proof.Proofs.Moves Sys2Proof.Proofs.HostInterface
  Sys2Proof.Proofs.ControlInvariant

/-- The command has completed (R38). -/
structure Ended (t : State) : Prop where
  busy : t.busy = false
  phase : t.phase = .idle
  done : t.done = true

theorem ended_complete (r : Result) (s : State) : Ended (s.complete r) := ⟨rfl, rfl, rfl⟩

/-- The command goes on in one of the phases `l`. -/
def GoesOn (s t : State) (l : List Phase) : Prop := t.busy = s.busy ∧ t.phase ∈ l

theorem GoesOn.mono {s t : State} {l l' : List Phase} (h : GoesOn s t l) (hl : l ⊆ l') : GoesOn s t l' := ⟨h.1, hl h.2⟩

theorem loopTop_ways (s : State) : GoesOn s s.loopTop [.u1Start] ∨ Ended s.loopTop := by
  obtain ⟨-, h⟩ | ⟨-, h⟩ := State.loopTop_cases s <;> rw [h]
  · exact .inr (ended_complete .ok s)
  · exact .inl ⟨rfl, List.mem_singleton_self _⟩

theorem pollTop_ways (s : State) : GoesOn s s.pollTop [.pStart] ∨ Ended s.pollTop := by
  obtain ⟨-, h⟩ | ⟨-, h⟩ := State.pollTop_cases s <;> rw [h]
  · exact .inr (ended_complete .timeout s)
  · exact .inl ⟨rfl, List.mem_singleton_self _⟩

theorem unitReturn_ways (s : State) : GoesOn s s.unitReturn [.u1Start, .pStart] ∨ Ended s.unitReturn := by
  obtain ⟨-, -, h⟩ | ⟨-, -, h⟩ | ⟨-, h⟩ := State.unitReturn_cases s <;> rw [h]
  · exact (loopTop_ways s.advance).imp_left fun g => g.mono (by simp)
  · exact (pollTop_ways { s with pcnt := 0 }).imp_left fun g => g.mono (by simp)
  · exact .inr (ended_complete s.result s)

theorem pollDecide_ways (s : State) : GoesOn s s.pollDecide [.u1Start, .pClear] ∨ Ended s.pollDecide := by
  obtain ⟨-, -, h⟩ | ⟨-, -, h⟩ | ⟨-, h⟩ := State.pollDecide_cases s <;> rw [h]
  · exact .inl ⟨rfl, by simp⟩
  · exact (loopTop_ways s.advance).imp_left fun g => g.mono (by simp)
  · exact .inr (ended_complete .timeout s)

theorem mem_successors_of_waitAfter {p q : Phase} (h : waitAfter p = some q) : q ∈ p.successors := by
  cases p <;> cases h <;> decide

theorem mem_successors_of_satisfiedTo {p q : Phase} (h : satisfiedTo p = some q) : q ∈ p.successors := by
  cases p <;> cases h <;> decide

theorem uStop_mem_successors_of_unitWaits {p : Phase} (h : p ∈ unitWaits) : .uStop ∈ p.successors := by
  revert p
  decide

/-- All that a move of the block does to PHASE and BUSY: the command goes on in the same phase or a successor, but for the
stop in step 3 that the invariant excludes, or it ends, and only from one of three phases. -/
theorem blockMove_ways {u t : State} (h : BlockMove u t) :
    GoesOn u t (u.phase :: u.phase.successors) ∨ (u.phase = .u3Check ∧ u.nacked = true ∧ t.busy = u.busy) ∨
    ((u.phase = .uStopWait ∨ u.phase = .pStopWait ∨ u.phase = .pClear) ∧ Ended t) := by
  have on {l : List Phase} {t' : State} (hl : l ⊆ u.phase.successors) (g : GoesOn u t' l) :
      GoesOn u t' (u.phase :: u.phase.successors) := g.mono (List.subset_cons_of_subset _ hl)
  have moves {p : Phase} (q : Phase) {t' : State} (hp : u.phase = p) (hq : q ∈ p.successors) (hb : t'.busy = u.busy)
      (ht : t'.phase = q) : GoesOn u t' (u.phase :: u.phase.successors) :=
    ⟨hb, List.mem_cons_of_mem _ (ht ▸ hp ▸ hq)⟩
  cases h with
  | enterWait h => exact .inl (moves _ rfl (mem_successors_of_waitAfter h) rfl rfl)
  | holdFirst h => exact .inl ⟨rfl, List.mem_cons_self ..⟩
  | again h _ => exact .inl ⟨rfl, List.mem_cons_self ..⟩
  | satisfied h => exact .inl (moves _ rfl (mem_successors_of_satisfiedTo h) rfl rfl)
  | unitLate h => exact .inl (moves _ rfl (uStop_mem_successors_of_unitWaits h) rfl rfl)
  | pollLate h => obtain h | h := h <;> exact .inl (moves .pStop h (by decide) rfl rfl)
  | unitAddressed h =>
    obtain ⟨-, e⟩ | ⟨-, e⟩ := unitAddressed_cases u.countRound <;> rw [e]
    · exact .inl (moves .uStop h (by decide) rfl rfl)
    · exact .inl (moves .u3Check h (by decide) rfl rfl)
  | refusedCheck h hn => exact .inr (.inl ⟨h, hn, rfl⟩)
  | notActive h => obtain h | h := h <;> exact .inl (moves .uStop h (by decide) rfl rfl)
  | active h => exact .inl (moves .u4Hi h (by decide) rfl rfl)
  | startReading h =>
    obtain ⟨-, e⟩ | ⟨-, e⟩ := startReading_cases u <;> rw [e]
    · exact .inl (moves .r7AckOn h (by decide) rfl rfl)
    · exact .inl (moves .r7AckOff h (by decide) rfl rfl)
  | addressSent h =>
    obtain ⟨-, e⟩ | ⟨-, e⟩ := addressSent_cases u.countRound <;> rw [e]
    · exact .inl (moves .r5Start h (by decide) rfl rfl)
    · exact .inl (moves .w5Data h (by decide) rfl rfl)
  | dataSent h =>
    obtain ⟨-, e⟩ | e := dataSent_cases u.countRound <;> rw [e]
    · exact .inl (moves .w5Data h (by decide) rfl rfl)
    · exact .inl (moves .uStop h (by decide) rfl rfl)
  | received h _ =>
    obtain e | ⟨-, -, e⟩ | ⟨-, -, e⟩ := afterStored_cases
      { u with buf := Memory.write bufBlank u.buf u.bufIndex u.rsp } <;> rw [e]
    · exact .inl (moves .uStop h (by decide) rfl rfl)
    · exact .inl (moves .r7AckOff h (by decide) rfl rfl)
    · exact .inl (moves .r7Wait h (by decide) rfl rfl)
  | unitReturn h =>
    obtain g | hend := unitReturn_ways u.countRound
    · exact .inl (on (by rw [h]; decide) g)
    · exact .inr (.inr ⟨.inl h, hend⟩)
  | stopLate h =>
    obtain g | hend := unitReturn_ways { u.countRound with result := firstFailure u.result .timeout }
    · exact .inl (on (by rw [h]; decide) g)
    · exact .inr (.inr ⟨.inl h, hend⟩)
  | pollAddressed h => exact .inl (moves .pStop h (by decide) rfl rfl)
  | pollDecide h =>
    obtain g | hend := pollDecide_ways u.countRound
    · exact .inl (on (by rw [h]; decide) g)
    · exact .inr (.inr ⟨.inr (.inl h), hend⟩)
  | pollStopLate h => exact .inr (.inr ⟨.inr (.inl h), ended_complete _ _⟩)
  | pollTop h =>
    obtain g | hend := pollTop_ways u
    · exact .inl (on (by rw [h]; decide) g)
    · exact .inr (.inr ⟨.inr (.inr h), hend⟩)

/-- Settles O52, by what the step is: the block's moves follow the successors, a command is accepted in `IDLE` alone, and
everyone else leaves PHASE. -/
theorem phaseFollowsTheRules : Obligations.PhaseFollowsTheRules := by
  intro s t h hreset hstep
  have idle (hb : s.busy = false) : s.phase = .idle := by
    by_contra hp
    simp [h.busyIff.2 hp] at hb
  cases turn_of_step hstep with
  | own hc hm =>
    obtain ⟨-, hp⟩ | ⟨hp, hn, -⟩ | ⟨hp, hend⟩ := blockMove_ways hm
    · exact List.mem_cons.1 hp
    · exact absurd (h.acked hp) (by simp [show s.nacked = true from hn])
    · rw [hend.phase]
      obtain hp | hp | hp := hp <;> exact .inr (by rw [show s.phase = _ from hp]; decide)
  | outside => exact .inl rfl
  | command hs op addr len =>
    obtain ⟨-, ha⟩ | ⟨hb, -, ha⟩ | ⟨hb, -, ha⟩ := accept_cases op addr len { s with host := hs } <;> rw [ha]
    · exact .inl rfl
    · exact .inl (idle hb).symm
    · exact .inr (by rw [idle hb]; exact List.mem_singleton_self _)
  | hostWrote => exact .inl rfl
  | @reset rest hh => exact absurd hh (hreset rest)
  | quiet => exact .inl rfl

/-- Settles O53, by what the step is: of all that can be a step while BUSY = 1, only three of the block's moves end the
command, and they complete it. -/
theorem commandEndsOnlyAfterStop : Obligations.CommandEndsOnlyAfterStop := by
  intro s t hreset hstep hb hbt
  have busy_kept {P : Prop} (h : t.busy = s.busy) : P := by simp [hb, hbt] at h
  cases turn_of_step hstep with
  | own hc hm =>
    obtain ⟨hkept, -⟩ | ⟨-, -, hkept⟩ | ⟨hp, hend⟩ := blockMove_ways hm
    · exact busy_kept hkept
    · exact busy_kept hkept
    · exact ⟨hp, hend.phase, hend.done⟩
  | outside => exact busy_kept rfl
  | command hs op addr len =>
    exact busy_kept (by rw [accept_of_busy (s := { s with host := hs }) op addr len hb])
  | hostWrote => exact busy_kept rfl
  | @reset rest hh => exact absurd hh (hreset rest)
  | quiet => exact busy_kept rfl

end Sys2Proof.Proofs.PhaseOrder
end

section
/-! The environment reaches the block only through RSP (R28, R100, R123): the block's moves do not read the environment, the
forced answers or the counter of free values. -/

namespace Sys2Proof.Proofs.Noninterference

open Sys2Proof Sys2Proof.Machine Sys2Proof.Claims Sys2Proof.Proofs.Moves

/-! ### States that differ in the environment alone -/

/-- `s` with another environment: its state, the forced answers and the counter of free values. -/
def withWorld (e : Env) (f : List (Option Byte)) (n : Nat) (s : State) : State :=
  { s with env := e, forced := f, draws := n }

@[simp] theorem withWorld_phase (e : Env) (f : List (Option Byte)) (n : Nat) (s : State) :
    (withWorld e f n s).phase = s.phase := rfl

/-- The move `g` gives the same state whether the environment is replaced before it or after it. -/
def WorldBlind (g : State → State) : Prop := ∀ e f n s, g (withWorld e f n s) = withWorld e f n (g s)

theorem goto_worldBlind (p : Phase) : WorldBlind (State.goto p) := fun _ _ _ _ => rfl
theorem raise_worldBlind (r : Result) : WorldBlind (State.raise r) := fun _ _ _ _ => rfl
theorem complete_worldBlind (r : Result) : WorldBlind (State.complete r) := fun _ _ _ _ => rfl
theorem pollLate_worldBlind : WorldBlind State.pollLate := fun _ _ _ _ => rfl
theorem advance_worldBlind : WorldBlind State.advance := fun _ _ _ _ => rfl
theorem countRound_worldBlind : WorldBlind State.countRound := fun _ _ _ _ => rfl

theorem WorldBlind.comp {g h : State → State} (hg : WorldBlind g) (hh : WorldBlind h) : WorldBlind fun s => g (h s) :=
  fun e f n s => (congrArg g (hh e f n s)).trans (hg e f n (h s))

/-- A branch on a condition that does not read the environment. -/
theorem WorldBlind.ite {p : State → Prop} [DecidablePred p] {g h : State → State}
    (hp : ∀ e f n s, p (withWorld e f n s) ↔ p s) (hg : WorldBlind g) (hh : WorldBlind h) :
    WorldBlind fun s => if p s then g s else h s := by
  intro e f n s
  simp only [hp e f n s, hg e f n s, hh e f n s]
  exact (apply_ite _ _ _ _).symm

theorem loopTop_worldBlind : WorldBlind State.loopTop :=
  .ite (fun _ _ _ _ => Iff.rfl) (complete_worldBlind .ok) fun _ _ _ _ => rfl

theorem pollTop_worldBlind : WorldBlind State.pollTop :=
  .ite (fun _ _ _ _ => Iff.rfl) (complete_worldBlind .timeout) fun _ _ _ _ => rfl

theorem pollStart_worldBlind : WorldBlind State.pollStart :=
  pollTop_worldBlind.comp (h := fun s => { s with pcnt := 0 }) fun _ _ _ _ => rfl

theorem unitReturn_worldBlind : WorldBlind State.unitReturn :=
  .ite (fun _ _ _ _ => Iff.rfl)
    (.ite (fun _ _ _ _ => Iff.rfl) (loopTop_worldBlind.comp advance_worldBlind) pollStart_worldBlind) fun _ _ _ _ => rfl

theorem stopLate_worldBlind : WorldBlind stopLate :=
  unitReturn_worldBlind.comp (h := fun s => { s with result := firstFailure s.result .timeout }) fun _ _ _ _ => rfl

theorem pollDecide_worldBlind : WorldBlind State.pollDecide :=
  .ite (fun _ _ _ _ => Iff.rfl)
    (.ite (fun _ _ _ _ => Iff.rfl) (goto_worldBlind .pClear) (loopTop_worldBlind.comp advance_worldBlind))
    (complete_worldBlind .timeout)

theorem accept_worldBlind (op : BitVec 2) (addr len : Half) : WorldBlind (State.accept op addr len) :=
  .ite (fun _ _ _ _ => Iff.rfl) (fun _ _ _ _ => rfl) <|
    loopTop_worldBlind.comp (h := fun s => { s with op := op, addr := addr, cur := 0, rem := len, result := .ok,
                                                    busy := true, done := false }) fun _ _ _ _ => rfl

theorem unitAddressed_worldBlind : WorldBlind unitAddressed :=
  .ite (fun _ _ _ _ => Iff.rfl) (fun _ _ _ _ => rfl) fun _ _ _ _ => rfl

theorem dataSent_worldBlind : WorldBlind dataSent :=
  .ite (fun _ _ _ _ => Iff.rfl) (fun _ _ _ _ => rfl) fun _ _ _ _ => rfl

theorem afterStored_worldBlind : WorldBlind afterStored :=
  .ite (fun _ _ _ _ => Iff.rfl) (fun _ _ _ _ => rfl) <|
    .ite (fun _ _ _ _ => Iff.rfl) (fun _ _ _ _ => rfl) fun _ _ _ _ => rfl

/-- The end of a sample round reads the bound, the round's answer and what the ways on read (R121). -/
theorem endRound_worldBlind {holds : State → Bool} {sat late : State → State}
    (hh : ∀ e f n s, holds (withWorld e f n s) = holds s) (hs : WorldBlind sat) (hl : WorldBlind late) :
    WorldBlind fun s => s.endRound (holds s) sat late :=
  .ite (fun e f n s => by rw [hh e f n s]) (hs.comp countRound_worldBlind) <|
    .ite (fun _ _ _ _ => Iff.rfl) (hl.comp countRound_worldBlind) countRound_worldBlind

/-- A wait on one flag. -/
theorem flagWait_worldBlind {sat late : State → State} (hs : WorldBlind sat) (hl : WorldBlind late) :
    WorldBlind fun s => s.endRound s.flag sat late :=
  endRound_worldBlind (holds := State.flag) (fun _ _ _ _ => rfl) hs hl

/-- A wait on two flags, the first of them held. -/
theorem pairWait_worldBlind {sat late : State → State} (c : Bool → Bool → Bool) (hs : WorldBlind sat)
    (hl : WorldBlind late) : WorldBlind fun s => s.endRound (c s.firstFlag s.flag) sat late :=
  endRound_worldBlind (holds := fun s => c s.firstFlag s.flag) (fun _ _ _ _ => rfl) hs hl

/-! ### How the block goes on after a call -/

theorem afterStart_worldBlind : WorldBlind afterStart := by
  intro e f n s
  simp only [afterStart, withWorld_phase]
  split <;> rfl

theorem afterStop_worldBlind : WorldBlind afterStop := by
  intro e f n s
  simp only [afterStop, withWorld_phase]
  split <;> rfl

theorem afterSendAddress_worldBlind : WorldBlind afterSendAddress := by
  intro e f n s
  simp only [afterSendAddress, withWorld_phase]
  split <;> rfl

theorem afterSendByte_worldBlind : WorldBlind afterSendByte := by
  intro e f n s
  simp only [afterSendByte, withWorld_phase]
  split <;> rfl

theorem afterSetAck_worldBlind : WorldBlind afterSetAck := by
  intro e f n s
  simp only [afterSetAck, withWorld_phase]
  split <;> rfl

theorem afterCtBusy_worldBlind : WorldBlind afterCtBusy := by
  intro e f n s
  simp only [afterCtBusy, withWorld_phase]
  split <;> rfl

theorem afterClearNack_worldBlind : WorldBlind afterClearNack := by
  intro e f n s
  simp only [afterClearNack, withWorld_phase]
  split
  · exact pollTop_worldBlind e f n s
  · rfl

theorem afterStSent_worldBlind : WorldBlind afterStSent := by
  intro e f n s
  simp only [afterStSent, withWorld_phase]
  split
  · exact flagWait_worldBlind (goto_worldBlind .u2Addr) (raise_worldBlind .timeout) e f n s
  · exact flagWait_worldBlind (goto_worldBlind .r6Addr) (raise_worldBlind .timeout) e f n s
  · exact flagWait_worldBlind (goto_worldBlind .pAddr) pollLate_worldBlind e f n s
  · rfl

theorem afterAdDone_worldBlind : WorldBlind afterAdDone := by
  intro e f n s
  simp only [afterAdDone, withWorld_phase]
  split
  · rfl
  · rfl
  · exact flagWait_worldBlind (goto_worldBlind .r7Check) (raise_worldBlind .timeout) e f n s
  · rfl

theorem afterAdNack_worldBlind : WorldBlind afterAdNack := by
  intro e f n s
  simp only [afterAdNack, withWorld_phase]
  split
  · exact pairWait_worldBlind condAddrAny unitAddressed_worldBlind (raise_worldBlind .timeout) e f n s
  · exact pairWait_worldBlind condAddrAny (sat := fun t => t.takeNacked.goto .pStop) (fun _ _ _ _ => rfl)
      pollLate_worldBlind e f n s
  · rfl

theorem afterTxEmpty_worldBlind : WorldBlind afterTxEmpty := by
  intro e f n s
  simp only [afterTxEmpty, withWorld_phase]
  split
  · exact flagWait_worldBlind (goto_worldBlind .u4Lo) (raise_worldBlind .timeout) e f n s
  · exact flagWait_worldBlind (sat := addressSent) (fun _ _ _ _ => rfl) (raise_worldBlind .timeout) e f n s
  · exact flagWait_worldBlind dataSent_worldBlind (raise_worldBlind .timeout) e f n s
  · rfl

theorem afterRxFull_worldBlind : WorldBlind afterRxFull := by
  intro e f n s
  simp only [afterRxFull, withWorld_phase]
  split
  · exact flagWait_worldBlind (goto_worldBlind .r7Recv) (raise_worldBlind .timeout) e f n s
  · rfl

/-- The state test of steps 3 and 7 (R143, R164). -/
theorem activeTest_worldBlind {go : State → State} (hg : WorldBlind go) :
    WorldBlind fun s => if condActive s.firstFlag s.flag then go s else s.raise .busFault :=
  .ite (fun _ _ _ _ => Iff.rfl) hg (raise_worldBlind .busFault)

theorem afterCtMaster_worldBlind : WorldBlind afterCtMaster := by
  intro e f n s
  simp only [afterCtMaster, withWorld_phase]
  split
  · exact activeTest_worldBlind (goto_worldBlind .u4Hi) e f n s
  · exact activeTest_worldBlind (go := startReading) (fun _ _ _ _ => rfl) e f n s
  · exact pairWait_worldBlind condIdle unitReturn_worldBlind stopLate_worldBlind e f n s
  · exact pairWait_worldBlind condIdle pollDecide_worldBlind (complete_worldBlind .timeout) e f n s
  · rfl

theorem afterRecvByte_withWorld {e : Env} {f : List (Option Byte)} {n : Nat} {s t : State}
    (h : afterRecvByte s = .next t) : afterRecvByte (withWorld e f n s) = .next (withWorld e f n t) := by
  obtain ⟨v, hv, rfl⟩ := withOperand_next h
  obtain ⟨hi, rfl⟩ := State.bufWrite_cases hv
  have hw : (withWorld e f n s).bufWrite s.bufIndex s.rsp =
      .next (withWorld e f n { s with buf := Memory.write bufBlank s.buf s.bufIndex s.rsp }) := if_pos hi
  exact (congrArg (withOperand afterStored) hw).trans (congrArg Host.Outcome.next (afterStored_worldBlind e f n _))

/-- A call's continuation does not read the environment. -/
theorem blockAfter_withWorld {i : Instr} (hi : i.isCommand = false) {e : Env} {f : List (Option Byte)} {n : Nat}
    {s t : State} (h : blockAfter i s = .next t) : blockAfter i (withWorld e f n s) = .next (withWorld e f n t) := by
  have blind {g : State → State} (hg : WorldBlind g) (hn : (.next (g s) : Host.Outcome State Fault Refusal) = .next t) :
      (.next (g (withWorld e f n s)) : Host.Outcome State Fault Refusal) = .next (withWorld e f n t) := by
    rw [hg e f n s, Host.Outcome.next.inj hn]
  cases i with
  | busStart => exact blind afterStart_worldBlind h
  | busStop => exact blind afterStop_worldBlind h
  | busSendAddress _ _ => exact blind afterSendAddress_worldBlind h
  | busSendByte _ => exact blind afterSendByte_worldBlind h
  | busRecvByte => exact afterRecvByte_withWorld h
  | busSetAck _ => exact blind afterSetAck_worldBlind h
  | busClearNack => exact blind afterClearNack_worldBlind h
  | qStSent => exact blind afterStSent_worldBlind h
  | qAdDone => exact blind afterAdDone_worldBlind h
  | qAdNack => exact blind afterAdNack_worldBlind h
  | qTxEmpty => exact blind afterTxEmpty_worldBlind h
  | qRxFull => exact blind afterRxFull_worldBlind h
  | qCtBusy => exact blind afterCtBusy_worldBlind h
  | qCtMaster => exact blind afterCtMaster_worldBlind h
  | writeByte _ _ | writeBlock _ _ | readByte _ _ | readBlock _ _ => cases hi

/-! ### The call -/

/-- Where the environments answer alike, the served states differ in the environment alone. -/
theorem serve_withWorld {e : Env} {f : List (Option Byte)} {n : Nat} {s : State} {i : Instr}
    (h : s.reply i = (withWorld e f n s).reply i) :
    ∃ e' f' n', (withWorld e f n s).serve i = withWorld e' f' n' (s.serve i) :=
  ⟨_, _, _, by simp only [State.serve, ← h]; rfl⟩

/-- Settles O57: a command reads no environment; a call's served states differ in the environment alone, and the block's
move after it, if the call is the block's, does not read that. -/
theorem blockSeesOnlyAnswers : Obligations.BlockSeesOnlyAnswers := by
  intro s t i e f n hreply h
  cases hcmd : i.isCommand
  · obtain ⟨e', f', n', hserve⟩ := serve_withWorld (e := e) (f := f) (n := n) hreply
    refine ⟨withWorld e' f' n' t, ?_, rfl⟩
    rw [exec_eq_primitive hcmd] at h ⊢
    obtain ⟨hc, ha⟩ | ⟨hc, hb, rfl⟩ := primitive_cases h
    · have hc' : (withWorld e f n s).nextCall = .next (some i) := hc
      exact (primitive_of_issues _ hc').trans (hserve ▸ blockAfter_withWorld hcmd ha)
    · have hc' : (withWorld e f n s).nextCall ≠ .next (some i) := hc
      exact (primitive_outside _ hc' hb).trans (congrArg Host.Outcome.next hserve)
  · obtain ⟨op, addr, len, he⟩ := exec_command hcmd
    cases (he s).symm.trans h
    exact ⟨_, (he _).trans (congrArg Host.Outcome.next (accept_worldBlind op addr len e f n s)), rfl⟩

end Sys2Proof.Proofs.Noninterference
end

section
/-! The reference environment (20_memory section 8): each action of R71 to R77, at the call that makes it. -/

namespace Sys2Proof.Proofs.ReferenceEnvironment

open Sys2Proof Sys2Proof.Machine Sys2Proof.Claims

/-- A call moves the reference environment as the rule of its action says. -/
theorem serve_env_reference {s : State} (h : s.env.kind = .reference) (i : Instr) :
    (s.serve i).env = s.env.act s.cfg i := by
  simp only [State.serve_env, State.envAfter, h]

/-- Settles O38: the call is `Env.start`. -/
theorem referenceStart : Obligations.ReferenceStart := fun _ h => serve_env_reference h .busStart

/-! ### `bus_send_address` (R72) -/

/-- A device outside its write cycle acknowledges Write intent and awaits the address. -/
theorem sendAddress_write_acknowledged {c : Config} {e : Env} (hp : e.present = true) (hw : e.wbusy = 0) :
    e.sendAddress c c.devAddr .write =
      { e with stSent := false, adDone := true, mode := .wAddr0, txEmpty := true } := by
  simp only [Env.sendAddress, hp, hw, beq_self_eq_true, Bool.and_self, if_true]

/-- A device outside its write cycle acknowledges Read intent and loads the byte at its pointer. -/
theorem sendAddress_read_acknowledged {c : Config} {e : Env} (hp : e.present = true) (hw : e.wbusy = 0) :
    e.sendAddress c c.devAddr .read =
      Env.loadByte c { e with stSent := false, adDone := true, mode := .rData } := by
  simp only [Env.sendAddress, hp, hw, beq_self_eq_true, Bool.and_self, if_true]

/-- The device that is in its write cycle refuses, and the cycle has one refusal fewer to go. -/
theorem sendAddress_inWriteCycle {c : Config} {e : Env} (hp : e.present = true) (hw : e.wbusy ≠ 0) (intent : Intent) :
    e.sendAddress c c.devAddr intent = { e with stSent := false, adNack := true, wbusy := e.wbusy - 1 } := by
  simp only [Env.sendAddress, hp, beq_self_eq_true, Bool.and_self, if_true, if_neg hw]

/-- With no device at the address nothing acknowledges. -/
theorem sendAddress_unanswered {c : Config} {e : Env} {a7 : BitVec 7} (h : e.present = false ∨ a7 ≠ c.devAddr)
    (intent : Intent) : e.sendAddress c a7 intent = { e with stSent := false, adNack := true } := by
  have hsel : (e.present && a7 == c.devAddr) = false := by
    obtain hp | ha := h
    · rw [hp, Bool.false_and]
    · rw [beq_false_of_ne ha, Bool.and_false]
  simp only [Env.sendAddress, hsel, Bool.false_eq_true, if_false]

/-- Settles O39, by who is at the address: a device outside its write cycle, one inside it, or none. -/
theorem referenceSendAddress : Obligations.ReferenceSendAddress := by
  intro s a7 hk
  refine ⟨?_, ?_, fun intent h => (serve_env_reference hk _).trans (sendAddress_unanswered h intent)⟩
  · rintro hp rfl hw
    exact ⟨(serve_env_reference hk _).trans (sendAddress_write_acknowledged hp hw),
      (serve_env_reference hk _).trans (sendAddress_read_acknowledged hp hw)⟩
  · rintro intent hp rfl hw
    exact (serve_env_reference hk _).trans (sendAddress_inWriteCycle hp hw intent)

/-! ### `bus_send_byte` (R73) -/

/-- A page of the 16-bit space ends inside it: PAGE_SIZE divides 65536 (R7). -/
theorem pageEnd_le (c : Config) (a : Half) : (a.toNat / c.pageSize + 1) * c.pageSize ≤ 65536 := by
  have hdvd : c.pageSize ∣ 65536 := Nat.pow_dvd_pow 2 (Nat.le_of_lt_succ c.pageLog.isLt)
  have hlt : a.toNat / c.pageSize < 65536 / c.pageSize := Nat.div_lt_div_of_lt_of_dvd hdvd a.isLt
  calc (a.toNat / c.pageSize + 1) * c.pageSize ≤ 65536 / c.pageSize * c.pageSize := Nat.mul_le_mul_right _ hlt
    _ = 65536 := Nat.div_mul_cancel hdvd

/-- The pointer after a data byte, as a number: nothing of it is cut off. -/
theorem wrapPtr_toNat (c : Config) (e : Env) :
    (e.wrapPtr c).toNat = (e.ptr.toNat + 1) % c.pageSize + c.pageSize * (e.ptr.toNat / c.pageSize) := by
  have hmod : (e.ptr.toNat + 1) % c.pageSize < c.pageSize := Nat.mod_lt _ (Nat.two_pow_pos _)
  have hend := pageEnd_le c e.ptr
  rw [Nat.succ_mul] at hend
  rw [Env.wrapPtr, BitVec.toNat_ofNat, Nat.mod_eq_of_lt (by omega), Nat.mul_comm, Nat.add_comm]

/-- The pointer stays in its page. -/
theorem wrapPtr_div (c : Config) (e : Env) : (e.wrapPtr c).toNat / c.pageSize = e.ptr.toNat / c.pageSize := by
  have hpos : 0 < c.pageSize := Nat.two_pow_pos _
  rw [wrapPtr_toNat, Nat.add_mul_div_left _ _ hpos, Nat.div_eq_of_lt (Nat.mod_lt _ hpos), Nat.zero_add]

/-- Inside the page the pointer moves on by one, from the last byte to the first. -/
theorem wrapPtr_mod (c : Config) (e : Env) : (e.wrapPtr c).toNat % c.pageSize = (e.ptr.toNat + 1) % c.pageSize := by
  rw [wrapPtr_toNat, Nat.add_mul_mod_self_left, Nat.mod_mod]

/-- Settles O40, mode by mode. -/
theorem referenceSendByte : Obligations.ReferenceSendByte := by
  intro s b hk
  have hserve : (s.serve (.busSendByte b)).env = s.env.sendByte s.cfg b := serve_env_reference hk _
  refine ⟨fun hm => ?_, fun hm => ?_, fun hm => ⟨s.env.wrapPtr s.cfg, ?_, wrapPtr_div _ _, wrapPtr_mod _ _⟩, ?_⟩
  · simp only [hserve, Env.sendByte, hm]
  · simp only [hserve, Env.sendByte, hm]
  · simp only [hserve, Env.sendByte, hm]
  · rintro (hm | hm) <;> simp only [hserve, Env.sendByte, hm]

/-! ### `bus_stop` (R76) -/

/-- The first pair of a list counts where no later pair has its address. -/
theorem lastLatched_cons (k a : Nat) (b old : Byte) (l : List Host.Cell) :
    lastLatched ((k, b) :: l) a old = lastLatched l a (if a = k then b else old) := by
  simp only [lastLatched, List.reverse_cons, List.find?_append]
  cases l.reverse.find? (fun c => c.1 == a) with
  | some c => rfl
  | none =>
    by_cases ha : a = k
    · simp [ha]
    · simp [ha, Ne.symm ha]

/-- What the device reads at any address after a write. -/
theorem memRead_memWrite {e : Env} (h : Memory.wf (some devBlank) e.mem = true) (k a : Nat) (b : Byte) :
    (e.memWrite k b).memRead a = if a = k then b else e.memRead a := by
  split
  · next ha => rw [ha, Env.memRead_memWrite_same h]
  · next ha => exact Env.memRead_memWrite_other ha e b

/-- A commit leaves at every address the last byte latched for it. -/
theorem memRead_commit (a : Nat) : ∀ (l : List Host.Cell) {e : Env}, Memory.wf (some devBlank) e.mem = true →
    (e.commit l).memRead a = lastLatched l a (e.memRead a)
  | [], _, _ => rfl
  | (k, b) :: l, e, h => by
    rw [Env.commit, memRead_commit a l (Env.wf_memWrite h k b), memRead_memWrite h, lastLatched_cons]

/-- A commit moves the device's memory only: the pairs are written to it in order. -/
theorem commit_eq : ∀ (l : List Host.Cell) (e : Env),
    e.commit l = { e with mem := l.foldl (fun m c => Memory.write (some devBlank) m c.1 c.2) e.mem }
  | [], _ => rfl
  | (k, b) :: l, e => commit_eq l (e.memWrite k b)

/-- What every stop does (R76): the six flags, LATCH and MODE. -/
def released (e : Env) : Env :=
  { e with ctBusy := false, ctMaster := false, stSent := false, adDone := false, txEmpty := false, rxFull := false,
           latch := [], mode := .idle }

/-- A stop after latched data bytes writes them to the device and starts the write cycle. -/
theorem stop_of_latched {e : Env} (h : e.mode = .wData ∧ e.latch ≠ []) :
    e.stop = { released e with mem := (e.commit e.latch).mem, wbusy := e.wcNacks } := by
  simp only [Env.stop, if_pos h, commit_eq, released]

/-- Any other stop leaves the device's memory and its write cycle. -/
theorem stop_of_not_latched {e : Env} (h : ¬ (e.mode = .wData ∧ e.latch ≠ [])) : e.stop = released e := by
  simp only [Env.stop, if_neg h, released]

/-- A stop changes nothing but what every stop does, the device's memory and its write cycle. -/
theorem stop_eq (e : Env) : e.stop = { released e with wbusy := e.stop.wbusy, mem := e.stop.mem } := by
  by_cases h : e.mode = .wData ∧ e.latch ≠ []
  · rw [stop_of_latched h]
  · rw [stop_of_not_latched h]

/-- Settles O42: a stop commits the latch or not, and a commit's effect on each address is by induction on the latch. -/
theorem referenceStop : Obligations.ReferenceStop := by
  intro s hk hok
  rw [serve_env_reference hk .busStop, Env.act]
  refine ⟨fun hm hl => ?_, fun hn => ?_, stop_eq s.env⟩
  · rw [stop_of_latched ⟨hm, hl⟩]
    exact ⟨rfl, fun a => memRead_commit a s.env.latch hok.dev⟩
  · rw [stop_of_not_latched hn]
    exact ⟨rfl, rfl⟩

/-! ### `bus_recv_byte`, `bus_set_ack` and `bus_clear_nack` (R74, R75) -/

/-- With ACK_EN = 1 a device in `RData` loads its next byte. -/
theorem recvByte_acknowledging {c : Config} {e : Env} (hm : e.mode = .rData) (ha : e.ackEn = true) :
    e.recvByte c = Env.loadByte c { e with rxFull := false } := by
  simp only [Env.recvByte, hm, ha, if_true]

/-- With ACK_EN = 0 a device in `RData` goes to `Idle`. -/
theorem recvByte_notAcknowledging {c : Config} {e : Env} (hm : e.mode = .rData) (ha : e.ackEn = false) :
    e.recvByte c = { e with rxFull := false, mode := .idle } := by
  simp only [Env.recvByte, hm, ha, Bool.false_eq_true, if_false]

/-- In any other mode the call clears RX_FULL alone. -/
theorem recvByte_notReading {c : Config} {e : Env} (hm : e.mode ≠ .rData) :
    e.recvByte c = { e with rxFull := false } := by
  simp only [Env.recvByte]
  split
  · next hr => exact absurd hr hm
  all_goals rfl

/-- Without a forced answer the reference environment answers what it shows. -/
theorem answer_reference {s : State} (hk : s.env.kind = .reference) (hf : s.forced = []) (i : Instr) :
    s.answer i = s.env.shown i := by
  simp only [State.answer, hf, List.head?_nil, State.ownAnswer, hk]

/-- Settles O41: the answer is DR, and each call is its action, by MODE and ACK_EN. -/
theorem referenceReceiveAndAck : Obligations.ReferenceReceiveAndAck := by
  intro s hk
  have hrecv : (s.serve .busRecvByte).env = s.env.recvByte s.cfg := serve_env_reference hk _
  exact ⟨fun hf => answer_reference hk hf .busRecvByte,
    fun hm ha => hrecv.trans (recvByte_acknowledging hm ha),
    fun hm ha => hrecv.trans (recvByte_notAcknowledging hm ha),
    fun hm => hrecv.trans (recvByte_notReading hm),
    fun en => serve_env_reference hk (.busSetAck en),
    serve_env_reference hk .busClearNack⟩

/-! ### The queries (R77) -/

/-- RSP[0] carries the flag (R85). -/
theorem flagByte_getLsbD_zero (f : Bool) : (flagByte f).getLsbD 0 = f := by
  cases f <;> rfl

/-- The block hears bit 0 of the answer. -/
theorem hears_of_isQuery {i : Instr} (h : i.isQuery = true) (s : State) : s.hears i = (s.answer i).getLsbD 0 := by
  rw [State.hears, State.reply, if_pos h, flagByte_getLsbD_zero]

/-- A query changes nothing of the reference environment. -/
theorem act_of_isQuery {i : Instr} (h : i.isQuery = true) (c : Config) (e : Env) : e.act c i = e := by
  cases i with
  | qStSent | qAdDone | qAdNack | qTxEmpty | qRxFull | qCtBusy | qCtMaster => rfl
  | _ => cases h

/-- Settles O43: a query hears bit 0 of its answer, which is the flag the environment shows or the forced value. -/
theorem referenceQueries : Obligations.ReferenceQueries := by
  intro s hk
  refine ⟨fun hf => ?_, fun i hi => ⟨(serve_env_reference hk i).trans (act_of_isQuery hi _ _), fun v rest hf => ?_⟩⟩
  · have hshown {i : Instr} {f : Bool} (hi : i.isQuery = true) (hs : s.env.shown i = flagByte f) : s.hears i = f := by
      rw [hears_of_isQuery hi, answer_reference hk hf, hs, flagByte_getLsbD_zero]
    exact ⟨hshown rfl rfl, hshown rfl rfl, hshown rfl rfl, hshown rfl rfl, hshown rfl rfl, hshown rfl rfl,
      hshown rfl rfl⟩
  · rw [hears_of_isQuery hi]
    simp only [State.answer, hf, List.head?_cons]

end Sys2Proof.Proofs.ReferenceEnvironment
end

section
/-! The encoding (30_encoding): the fields of both words, the decoder and the encoder as inverses of each other, the request
words the block issues (R93), and the request and the response of a call (R85). -/

namespace Sys2Proof.Proofs.Encoding

open Sys2Proof Sys2Proof.Machine Sys2Proof.Claims

/-! ### The fields of a command word (R81) -/

theorem commandWord_rd (rd blk : BitVec 1) (addr len : Half) :
    (commandWord rd blk addr len).getLsbD 33 = rd.getLsbD 0 := by
  simp only [commandWord, BitVec.getLsbD_append, Nat.reduceLT, Nat.reduceSub, if_false]

theorem commandWord_blk (rd blk : BitVec 1) (addr len : Half) :
    (commandWord rd blk addr len).getLsbD 32 = blk.getLsbD 0 := by
  simp only [commandWord, BitVec.getLsbD_append, Nat.reduceLT, Nat.reduceSub, if_false, if_true]

@[simp] theorem commandWord_addr (rd blk : BitVec 1) (addr len : Half) :
    (commandWord rd blk addr len).extractLsb' 16 16 = addr :=
  (BitVec.extractLsb'_append_eq_of_le (Nat.le_refl 16)).trans BitVec.extractLsb'_append_eq_right

@[simp] theorem commandWord_len (rd blk : BitVec 1) (addr len : Half) :
    (commandWord rd blk addr len).extractLsb' 0 16 = len :=
  BitVec.extractLsb'_append_eq_right

/-- A bit of a word as a field of width 1. -/
theorem ofBool_getLsbD {n : Nat} (w : BitVec n) (i : Nat) : BitVec.ofBool (w.getLsbD i) = w.extractLsb' i 1 := by
  ext j hj
  obtain rfl : j = 0 := by omega
  simp

/-- The four fields of a command word are all of it. -/
theorem commandWord_of_fields (w : CmdWord) :
    commandWord (.ofBool (w.getLsbD 33)) (.ofBool (w.getLsbD 32)) (w.extractLsb' 16 16) (w.extractLsb' 0 16) = w := by
  rw [ofBool_getLsbD, ofBool_getLsbD, commandWord,
    BitVec.extractLsb'_append_extractLsb'_eq_extractLsb' (show 33 = 32 + 1 from rfl),
    BitVec.extractLsb'_append_extractLsb'_eq_extractLsb' (show 32 = 16 + 16 from rfl),
    BitVec.extractLsb'_append_extractLsb'_eq_extractLsb' (show 16 = 0 + 16 from rfl)]
  exact BitVec.extractLsb'_eq_self

/-! ### The commands (R82) -/

/-- The command with the operation bits `rd` and `blk` (R82). -/
def commandOf : Bool → Bool → Half → Half → Instr
  | false, false => .writeByte
  | false, true => .writeBlock
  | true, false => .readByte
  | true, true => .readBlock

theorem decodeCw_eq_commandOf (w : CmdWord) :
    decodeCw w = commandOf (w.getLsbD 33) (w.getLsbD 32) (w.extractLsb' 16 16) (w.extractLsb' 0 16) := by
  unfold decodeCw
  cases w.getLsbD 33 <;> cases w.getLsbD 32 <;> rfl

theorem encode_commandOf (rd blk : Bool) (addr len : Half) :
    encode (commandOf rd blk addr len) = .cw (commandWord (.ofBool rd) (.ofBool blk) addr len) := by
  cases rd <;> cases blk <;> rfl

/-- A command is read back from its word. -/
theorem decode_encode_commandOf (rd blk : Bool) (addr len : Half) :
    decode (encode (commandOf rd blk addr len)) = .ok (commandOf rd blk addr len) := by
  rw [encode_commandOf, decode, decodeCw_eq_commandOf, commandWord_rd, commandWord_blk, commandWord_addr, commandWord_len]
  cases rd <;> cases blk <;> rfl

/-- A command word is the word of the command read from it (R92). -/
theorem encode_decodeCw (w : CmdWord) : encode (decodeCw w) = .cw w := by
  rw [decodeCw_eq_commandOf, encode_commandOf, commandWord_of_fields]

/-! ### The fields of a request word (R85) -/

@[simp] theorem requestWord_code (code : BitVec 4) (arg : Byte) : (requestWord code arg).extractLsb' 8 4 = code :=
  BitVec.extractLsb'_append_eq_left

@[simp] theorem requestWord_arg (code : BitVec 4) (arg : Byte) : (requestWord code arg).extractLsb' 0 8 = arg :=
  BitVec.extractLsb'_append_eq_right

/-- The two fields of a request word are all of it. -/
theorem requestWord_of_fields (w : ReqWord) : requestWord (w.extractLsb' 8 4) (w.extractLsb' 0 8) = w := by
  rw [requestWord, BitVec.extractLsb'_append_extractLsb'_eq_extractLsb' (show 8 = 0 + 8 from rfl)]
  exact BitVec.extractLsb'_eq_self

/-! ### The requests (R86, R87) -/

theorem request_eq_some_iff {i : Instr} {w : ReqWord} : i.request = some w ↔ encode i = .pw w := by
  unfold Instr.request
  cases encode i <;> simp

/-- An instruction that is no command has a request word. -/
theorem encode_of_not_command {i : Instr} (h : i.isCommand = false) : ∃ w, encode i = .pw w := by
  cases i <;> first | exact ⟨_, rfl⟩ | cases h

/-- A request without operand is accepted with argument 0 only (R86). -/
theorem plainRequest_eq_ok_iff {code : BitVec 4} {arg : Byte} {i j : Instr} :
    plainRequest code arg i = .ok j ↔ arg = 0 ∧ i = j := by
  unfold plainRequest
  split
  · next ha => simp [ha]
  · next ha => simp only [ha, false_and, reduceCtorEq]

theorem encode_of_plainRequest {code : BitVec 4} {arg : Byte} {i j : Instr} (hi : encode i = .pw (requestWord code 0))
    (h : plainRequest code arg i = .ok j) : encode j = .pw (requestWord code arg) := by
  obtain ⟨rfl, rfl⟩ := plainRequest_eq_ok_iff.1 h
  exact hi

/-- The address byte is put together again from its two fields (R87). -/
theorem addressByte_of_fields (arg : Byte) :
    arg.extractLsb' 1 7 ++ (Intent.ofBit (arg.getLsbD 0)).bit = arg := by
  have hbit : (Intent.ofBit (arg.getLsbD 0)).bit = arg.extractLsb' 0 1 := by
    rw [← ofBool_getLsbD]
    cases arg.getLsbD 0 <;> rfl
  rw [hbit]
  exact BitVec.extractLsb'_append_extractLsb' (w := 7) (len := 1)

/-- With bits 7 to 1 zero the acknowledge byte is its bit 0 (R86). -/
theorem ackByte_of_fields {arg : Byte} (h : arg.extractLsb' 1 7 = 0) :
    (0 : BitVec 7) ++ BitVec.ofBool (arg.getLsbD 0) = arg := by
  rw [← h, ofBool_getLsbD]
  exact BitVec.extractLsb'_append_extractLsb' (w := 7) (len := 1)

/-- An accepted request word is the word of the request read from it, code by code. -/
theorem encode_of_decodePw {w : ReqWord} {i : Instr} (h : decodePw w = .ok i) : encode i = .pw w := by
  obtain ⟨code, arg, rfl⟩ : ∃ code arg, w = requestWord code arg := ⟨_, _, (requestWord_of_fields w).symm⟩
  simp only [decodePw, requestWord_code, requestWord_arg] at h
  have code_eq {n : Nat} (hn : code.toNat = n) : code = BitVec.ofNat 4 n := by rw [← hn, BitVec.ofNat_toNat]; rfl
  split at h
  case h_3 hc =>
    cases h
    rw [code_eq hc, encode, addressByte_of_fields]
    rfl
  case h_4 hc =>
    cases h
    rw [code_eq hc]
    rfl
  case h_6 hc =>
    split at h <;> cases h
    next harg =>
      rw [code_eq hc, encode, ackByte_of_fields harg]
      rfl
  case h_15 => cases h
  all_goals
    next hc => exact encode_of_plainRequest (by rw [code_eq hc]; rfl) h

/-- A request is read back from its word. -/
theorem decode_encode_of_not_command {i : Instr} (h : i.isCommand = false) : decode (encode i) = .ok i := by
  obtain ⟨w, hw⟩ := encode_of_not_command h
  rw [hw]
  exact decodePw_request (request_eq_some_iff.2 hw)

/-- Settles O1: a command is read back from the four fields of its word, a request by `decodePw_request`. -/
theorem decodeOfEncode : Obligations.DecodeOfEncode := by
  intro i
  cases i with
  | writeByte addr len => exact decode_encode_commandOf false false addr len
  | writeBlock addr len => exact decode_encode_commandOf false true addr len
  | readByte addr len => exact decode_encode_commandOf true false addr len
  | readBlock addr len => exact decode_encode_commandOf true true addr len
  | _ => exact decode_encode_of_not_command rfl

/-- Settles O2, format by format. -/
theorem encodeOfDecode : Obligations.EncodeOfDecode := by
  intro w i h
  cases w with
  | cw w => cases h; exact encode_decodeCw w
  | pw w => exact encode_of_decodePw h

/-- Settles O4: seven closed words. -/
theorem specWordsDecode : Obligations.SpecWordsDecode := by
  unfold Obligations.SpecWordsDecode
  decide

/-! ### The request words the block issues (R93) -/

/-- The word the block issues is the request of its next call. -/
theorem request_of_nextRequest {s : State} {w : ReqWord} (h : s.nextRequest = .next (some w)) :
    ∃ i, s.nextCall = .next (some i) ∧ i.request = some w := by
  obtain ⟨c, hc, hw⟩ := Moves.withOperand_next h
  obtain ⟨i, rfl, hi⟩ := Option.bind_eq_some_iff.1 hw
  exact ⟨i, hc, hi⟩

/-- No instruction's request word has a reserved code or a set bit where R86 fixes the argument at 0 (R93). -/
theorem request_unreserved {i : Instr} {w : ReqWord} (h : i.request = some w) :
    w.extractLsb' 8 4 ≠ (0x7 : BitVec 4) ∧ w.extractLsb' 8 4 ≠ (0xF : BitVec 4) ∧
    (w.extractLsb' 8 4 ∉ ([0x2, 0x3, 0x5] : List (BitVec 4)) → w.extractLsb' 0 8 = (0 : Byte)) ∧
    (w.extractLsb' 8 4 = (0x5 : BitVec 4) → w.extractLsb' 1 7 = (0 : BitVec 7)) := by
  cases i with
  | writeByte | writeBlock | readByte | readBlock => cases h
  | busSendAddress | busSendByte => cases h; simp
  | busSetAck enabled => cases h; cases enabled <;> decide
  | _ => cases h; decide

/-- Settles O3: the word is the request of an instruction. -/
theorem blockIssuesNoReservedWord : Obligations.BlockIssuesNoReservedWord := by
  intro s w h
  obtain ⟨i, -, hi⟩ := request_of_nextRequest h
  exact request_unreserved hi

/-! ### The response of a call (R85, R77) -/

/-- RSP[7:1] is 0 for a flag (R85). -/
theorem flagByte_high (f : Bool) : (flagByte f).extractLsb' 1 7 = (0 : BitVec 7) := by
  cases f <;> rfl

theorem reply_of_isQuery {i : Instr} (h : i.isQuery = true) (s : State) :
    s.reply i = flagByte ((s.answer i).getLsbD 0) := if_pos h

/-- A call without response answers 0. -/
theorem reply_of_no_answer {i : Instr} (hq : i.isQuery = false) (hr : i ≠ .busRecvByte) (s : State) :
    s.reply i = 0 := by
  simp [State.reply, hq, hr]

theorem answer_of_forced {s : State} {v : Byte} {rest : List (Option Byte)} (h : s.forced = some v :: rest) (i : Instr) :
    s.answer i = v := by
  simp only [State.answer, h, List.head?_cons]

/-- A call that gives an answer uses up one entry of the forced answers (R77). -/
theorem serve_forced_of_cons {s : State} {i : Instr} {a : Option Byte} {rest : List (Option Byte)}
    (hi : givesAnswer i = true) (h : s.forced = a :: rest) : (s.serve i).forced = rest := by
  simp [hi, h]

/-! ### The oracle: no answer and no flag depends on where the environment stands (R6, R78) -/

theorem reply_oracle_withEnv {s : State} {e : Env} (hs : s.env.kind = .oracle) (he : e.kind = .oracle) (i : Instr) :
    ({ s with env := e } : State).reply i = s.reply i := by
  simp only [State.reply, State.answer, State.ownAnswer, hs, he]

/-- What a call leaves of the oracle's environment, but for what only the reference environment or `bus_set_ack` moves, is
the same from every environment. -/
theorem drawn_freed (f : FreeEnv) (i : Instr) (v : Byte) {e e' : Env} (h : e.kind = e'.kind) :
    (e.freed f).drawn i v =
      { (e'.freed f).drawn i v with
        present := e.present, wcNacks := e.wcNacks, mode := e.mode, latch := e.latch, dr := e.dr,
        ackEn := ((e.freed f).drawn i v).ackEn } := by
  cases i <;> simp [Env.drawn, Env.freed, Env.setAck, Env.clearNack, h]

/-- Settles O33: RSP by the kind of call, the forced answer where there is one, and the oracle's environment by its free
value. -/
theorem requestAndResponse : Obligations.RequestAndResponse := by
  intro s i hi
  refine ⟨?_, fun hq => ?_, fun hq hr => reply_of_no_answer hq hr s, fun v rest hf hr => ?_, fun v rest hf hq => ?_,
    fun hs e he => ⟨reply_oracle_withEnv hs he i, ?_⟩⟩
  · obtain ⟨w, hw⟩ := encode_of_not_command hi
    exact ⟨w, hw, request_eq_some_iff.2 hw⟩
  · rw [State.serve_rsp, reply_of_isQuery hq, flagByte_high]
  · subst hr
    exact ⟨answer_of_forced hf .busRecvByte, serve_forced_of_cons rfl hf⟩
  · have hgives : givesAnswer i = true := by simp [givesAnswer, hq]
    rw [State.serve_rsp, reply_of_isQuery hq, answer_of_forced hf]
    exact ⟨ReferenceEnvironment.flagByte_getLsbD_zero _, serve_forced_of_cons hgives hf⟩
  · have hreply := reply_oracle_withEnv hs he i
    simp only [State.serve_env, State.envAfter, hs, he, hreply]
    exact drawn_freed _ i _ (he.trans hs.symm)

end Sys2Proof.Proofs.Encoding
end

section
/-! Frames of the primitives (R100 to R114): a call that is not the block's own, what each primitive's continuation leaves of
the block's registers, and what every call leaves of BUF and of the reference device. -/

namespace Sys2Proof.Proofs.BusFrames

open Sys2Proof Sys2Proof.Machine Sys2Proof.Claims Sys2Proof.Proofs.Moves Sys2Proof.Proofs.Memories

/-! ### Calls by others (R101, R260) -/

theorem nextCall_idle {s : State} (h : s.phase = .idle) : s.nextCall = .next none := by
  simp only [State.nextCall, h]

/-- A call that is not the running command's own is refused (R101, U4). -/
theorem primitive_while_busy {i : Instr} {s : State} (block : State → Host.Outcome State Fault Refusal)
    (hc : s.nextCall ≠ .next (some i)) (hb : s.busy = true) : primitive i block s = .refused .busInUse := by
  rw [primitive, if_neg fun hi => hc (State.issues_iff.1 hi), if_pos hb]

/-- Settles O32: in `IDLE` the block has no call of its own, so whoever calls is served. -/
theorem callsByOthers : Obligations.CallsByOthers := by
  intro s i hi
  refine ⟨fun hb hp => ⟨?_, rfl, rfl, rfl, rfl, rfl, rfl, rfl, rfl, rfl, rfl, rfl, rfl, rfl, rfl, rfl⟩, fun hb hc => ?_⟩
  · rw [exec_eq_primitive hi]
    exact primitive_outside _ (by rw [nextCall_idle hp]; nofun) hb
  · rw [exec_eq_primitive hi]
    exact primitive_while_busy _ hc hb

/-! ### What every move of the block leaves -/

/-- What no call changes (`SameFrame`), and NACKED, which the block loops leave too. -/
structure LoopFrame (s t : State) : Prop where
  cfg : t.cfg = s.cfg
  op : t.op = s.op
  host : t.host = s.host
  rdata : t.rdata = s.rdata
  nacked : t.nacked = s.nacked

theorem LoopFrame.sameFrame {s t : State} (h : LoopFrame s t) : SameFrame s t := ⟨h.cfg, h.op, h.host, h.rdata⟩

theorem loopTop_frame (s : State) : LoopFrame s s.loopTop := by
  obtain ⟨-, h⟩ | ⟨-, h⟩ := State.loopTop_cases s <;> rw [h] <;> exact ⟨rfl, rfl, rfl, rfl, rfl⟩

/-- The advance moves the unit's operands alone. -/
theorem advance_loopTop_frame (s : State) : LoopFrame s s.advance.loopTop := { loopTop_frame s.advance with }

theorem pollTop_frame (s : State) : LoopFrame s s.pollTop := by
  obtain ⟨-, h⟩ | ⟨-, h⟩ := State.pollTop_cases s <;> rw [h] <;> exact ⟨rfl, rfl, rfl, rfl, rfl⟩

theorem unitReturn_frame (s : State) : LoopFrame s s.unitReturn := by
  obtain ⟨-, -, h⟩ | ⟨-, -, h⟩ | ⟨-, h⟩ := State.unitReturn_cases s <;> rw [h]
  · exact advance_loopTop_frame s
  · exact { pollTop_frame { s with pcnt := 0 } with }
  · exact ⟨rfl, rfl, rfl, rfl, rfl⟩

theorem pollDecide_frame (s : State) : LoopFrame s s.pollDecide := by
  obtain ⟨-, -, h⟩ | ⟨-, -, h⟩ | ⟨-, h⟩ := State.pollDecide_cases s <;> rw [h]
  · exact ⟨rfl, rfl, rfl, rfl, rfl⟩
  · exact advance_loopTop_frame s
  · exact ⟨rfl, rfl, rfl, rfl, rfl⟩

theorem blockMove_sameFrame {u t : State} (h : BlockMove u t) : SameFrame u t := by
  cases h with
  | unitAddressed _ =>
    obtain ⟨-, e⟩ | ⟨-, e⟩ := unitAddressed_cases u.countRound <;> rw [e] <;> exact ⟨rfl, rfl, rfl, rfl⟩
  | dataSent _ => obtain ⟨-, e⟩ | e := dataSent_cases u.countRound <;> rw [e] <;> exact ⟨rfl, rfl, rfl, rfl⟩
  | received _ _ =>
    obtain e | ⟨-, -, e⟩ | ⟨-, -, e⟩ := afterStored_cases
      { u with buf := Memory.write bufBlank u.buf u.bufIndex u.rsp } <;> rw [e] <;> exact ⟨rfl, rfl, rfl, rfl⟩
  | unitReturn _ => exact (unitReturn_frame u.countRound).sameFrame
  | stopLate _ =>
    exact (unitReturn_frame { u.countRound with result := firstFailure u.result .timeout }).sameFrame
  | pollDecide _ => exact (pollDecide_frame u.countRound).sameFrame
  | pollTop _ => exact (pollTop_frame u).sameFrame
  | _ => exact ⟨rfl, rfl, rfl, rfl⟩

/-! ### What every primitive leaves -/

theorem exec_sameFrame {s t : State} {i : Instr} (hi : i.isCommand = false) (h : exec i s = .next t) :
    SameFrame s t := by
  obtain ⟨hc, ha⟩ | ⟨-, rfl⟩ := exec_primitive_cases hi h
  · exact blockMove_sameFrame (u := s.serve i) (blockMove_of_after hc ha)
  · exact ⟨rfl, rfl, rfl, rfl⟩

/-- The environment moves by the call alone. -/
theorem exec_env {s t : State} {i : Instr} (hi : i.isCommand = false) (h : exec i s = .next t) :
    t.env = (s.serve i).env := by
  obtain ⟨hc, ha⟩ | ⟨-, rfl⟩ := exec_primitive_cases hi h
  · exact blockMove_env (u := s.serve i) (blockMove_of_after hc ha)
  · rfl

/-- Only `bus_stop` writes the reference device (R76). -/
theorem exec_sameDevice {s t : State} {i : Instr} (hi : i.isCommand = false) (hstop : i ≠ .busStop)
    (h : exec i s = .next t) : SameDevice s t := by
  intro hk a
  rw [exec_env hi h, State.serve_memRead hk hstop]

/-- BUF changes only by the byte received in `R7_RECV`, at `CUR + IDX` (R167). -/
theorem exec_buf {s t : State} {i : Instr} (hi : i.isCommand = false) (h : exec i s = .next t) :
    t.buf = s.buf ∨
    (s.phase = .r7Recv ∧ i = .busRecvByte ∧ ∃ v, t.buf = Memory.write bufBlank s.buf s.bufIndex v) := by
  obtain ⟨hc, ha⟩ | ⟨-, rfl⟩ := exec_primitive_cases hi h
  · obtain hs | ⟨hp, -, hs⟩ := blockMove_store (u := s.serve i) (blockMove_of_after hc ha)
    · exact .inl hs.buf
    · have hrecv : .busRecvByte = i := by simpa [State.nextCall, show s.phase = .r7Recv from hp] using hc
      exact .inr ⟨hp, hrecv.symm, _, hs.buf⟩
  · exact .inl rfl

/-! ### Moves of PHASE, the held sample, WCNT and RESULT alone -/

/-- `t` is `u` but for PHASE, the held sample, WCNT and RESULT. -/
def ControlOnly (u t : State) : Prop :=
  ∃ p f w r, t = { u with phase := p, first := f, wcnt := w, result := r }

/-- The same, and NACKED may have moved. -/
def ControlAndNacked (u t : State) : Prop := ∃ n, ControlOnly { u with nacked := n } t

/-- The same, and IDX may have moved. -/
def ControlAndIndex (u t : State) : Prop := ∃ x, ControlOnly { u with idx := x } t

/-- What holds of the three ways on from a sample round holds of its end (R121). -/
theorem endRound_of_ways {P : State → Prop} {u : State} {holds : Bool} {sat late : State → State}
    (hs : P (sat u.countRound)) (hl : P (late u.countRound)) (ha : P u.countRound) : P (u.endRound holds sat late) := by
  obtain ⟨-, h⟩ | ⟨-, -, h⟩ | ⟨-, -, h⟩ := State.endRound_cases holds sat late u <;> rw [h]
  · exact hs
  · exact hl
  · exact ha

/-- The four plain actions lead to a wait, or leave the block as it was; RESULT stays. -/
theorem plainAction_controlOnly {u t : State} {i : Instr}
    (hi : i = .busStart ∨ (∃ a n, i = .busSendAddress a n) ∨ (∃ b, i = .busSendByte b) ∨ ∃ e, i = .busSetAck e)
    (h : blockAfter i u = .next t) : ControlOnly u t ∧ t.result = u.result := by
  obtain rfl | ⟨a, n, rfl⟩ | ⟨b, rfl⟩ | ⟨e, rfl⟩ := hi <;> cases h <;>
    simp only [afterStart, afterSendAddress, afterSendByte, afterSetAck] <;> split <;>
    exact ⟨⟨_, _, _, _, rfl⟩, rfl⟩

theorem afterStop_controlOnly (u : State) : ControlOnly u (afterStop u) := by
  simp only [afterStop]
  split <;> exact ⟨_, _, _, _, rfl⟩

/-- Only in `U3_CHECK` does the stop record a failure (R143). -/
theorem afterStop_result {u : State} (h : u.phase ≠ .u3Check) : (afterStop u).result = u.result := by
  unfold afterStop
  split
  · rfl
  · next hp => exact absurd hp h
  · rfl
  · rfl

/-- All that `bus_clear_nack` can lead to (R200, R204). -/
theorem afterClearNack_cases (u : State) :
    afterClearNack u = u ∨ afterClearNack u = u.complete .timeout ∨
    afterClearNack u = { u with pcnt := u.pcnt + 1, phase := .pStart, first := none } := by
  unfold afterClearNack
  split
  · exact .inr ((State.pollTop_cases u).imp And.right And.right)
  · exact .inl rfl

theorem afterStSent_controlOnly (u : State) : ControlOnly u (afterStSent u) := by
  simp only [afterStSent]
  split
  · exact endRound_of_ways ⟨_, _, _, _, rfl⟩ ⟨_, _, _, _, rfl⟩ ⟨_, _, _, _, rfl⟩
  · exact endRound_of_ways ⟨_, _, _, _, rfl⟩ ⟨_, _, _, _, rfl⟩ ⟨_, _, _, _, rfl⟩
  · exact endRound_of_ways ⟨_, _, _, _, rfl⟩ ⟨_, _, _, _, rfl⟩ ⟨_, _, _, _, rfl⟩
  · exact ⟨_, _, _, _, rfl⟩

theorem afterAdDone_controlOnly (u : State) : ControlOnly u (afterAdDone u) := by
  simp only [afterAdDone]
  split
  · exact ⟨_, _, _, _, rfl⟩
  · exact ⟨_, _, _, _, rfl⟩
  · exact endRound_of_ways ⟨_, _, _, _, rfl⟩ ⟨_, _, _, _, rfl⟩ ⟨_, _, _, _, rfl⟩
  · exact ⟨_, _, _, _, rfl⟩

theorem afterRxFull_controlOnly (u : State) : ControlOnly u (afterRxFull u) := by
  simp only [afterRxFull]
  split
  · exact endRound_of_ways ⟨_, _, _, _, rfl⟩ ⟨_, _, _, _, rfl⟩ ⟨_, _, _, _, rfl⟩
  · exact ⟨_, _, _, _, rfl⟩

theorem afterCtBusy_controlOnly (u : State) : ControlOnly u (afterCtBusy u) := by
  simp only [afterCtBusy]
  split <;> exact ⟨_, _, _, _, rfl⟩

/-- The second query of the address round may set NACKED too (R142, R202). -/
theorem afterAdNack_controlAndNacked (u : State) : ControlAndNacked u (afterAdNack u) := by
  have addressed : ControlAndNacked u (unitAddressed u.countRound) := by
    obtain ⟨-, h⟩ | ⟨-, h⟩ := unitAddressed_cases u.countRound <;> rw [h] <;> exact ⟨_, _, _, _, _, rfl⟩
  simp only [afterAdNack]
  split
  · exact endRound_of_ways addressed ⟨u.nacked, _, _, _, _, rfl⟩ ⟨u.nacked, _, _, _, _, rfl⟩
  · exact endRound_of_ways ⟨_, _, _, _, _, rfl⟩ ⟨u.nacked, _, _, _, _, rfl⟩ ⟨u.nacked, _, _, _, _, rfl⟩
  · exact ⟨u.nacked, _, _, _, _, rfl⟩

/-- The end of a byte's wait may move IDX too (R144, R145). -/
theorem afterTxEmpty_controlAndIndex (u : State) : ControlAndIndex u (afterTxEmpty u) := by
  have sent : ControlAndIndex u (dataSent u.countRound) := by
    obtain ⟨-, h⟩ | h := dataSent_cases u.countRound <;> rw [h] <;> exact ⟨_, _, _, _, _, rfl⟩
  simp only [afterTxEmpty]
  split
  · exact endRound_of_ways ⟨u.idx, _, _, _, _, rfl⟩ ⟨u.idx, _, _, _, _, rfl⟩ ⟨u.idx, _, _, _, _, rfl⟩
  · exact endRound_of_ways ⟨_, _, _, _, _, rfl⟩ ⟨u.idx, _, _, _, _, rfl⟩ ⟨u.idx, _, _, _, _, rfl⟩
  · exact endRound_of_ways sent ⟨u.idx, _, _, _, _, rfl⟩ ⟨u.idx, _, _, _, _, rfl⟩
  · exact ⟨u.idx, _, _, _, _, rfl⟩

/-- `q_ct_master` ends a unit or an attempt, and leaves NACKED (R143, R164, R146, R203). -/
theorem afterCtMaster_frame (u : State) : LoopFrame u (afterCtMaster u) := by
  simp only [afterCtMaster]
  split
  · split <;> exact ⟨rfl, rfl, rfl, rfl, rfl⟩
  · split <;> exact ⟨rfl, rfl, rfl, rfl, rfl⟩
  · exact endRound_of_ways { unitReturn_frame u.countRound with }
      { unitReturn_frame { u.countRound with result := firstFailure u.result .timeout } with } ⟨rfl, rfl, rfl, rfl, rfl⟩
  · exact endRound_of_ways { pollDecide_frame u.countRound with } ⟨rfl, rfl, rfl, rfl, rfl⟩ ⟨rfl, rfl, rfl, rfl, rfl⟩
  · exact ⟨rfl, rfl, rfl, rfl, rfl⟩

/-- All that a query but `q_ct_master` leads to, by the register beyond `ControlOnly` that it may move. -/
theorem query_controlOnly {u t : State} {i : Instr} (hq : i.isQuery = true) (hm : i ≠ .qCtMaster)
    (h : blockAfter i u = .next t) :
    ∃ n x, ControlOnly { u with nacked := n, idx := x } t ∧ (i ≠ .qAdNack → n = u.nacked) ∧
      (i ≠ .qTxEmpty → x = u.idx) := by
  cases i with
  | qStSent => cases h; exact ⟨u.nacked, u.idx, afterStSent_controlOnly u, fun _ => rfl, fun _ => rfl⟩
  | qAdDone => cases h; exact ⟨u.nacked, u.idx, afterAdDone_controlOnly u, fun _ => rfl, fun _ => rfl⟩
  | qRxFull => cases h; exact ⟨u.nacked, u.idx, afterRxFull_controlOnly u, fun _ => rfl, fun _ => rfl⟩
  | qCtBusy => cases h; exact ⟨u.nacked, u.idx, afterCtBusy_controlOnly u, fun _ => rfl, fun _ => rfl⟩
  | qAdNack =>
    cases h
    obtain ⟨n, hn⟩ := afterAdNack_controlAndNacked u
    exact ⟨n, u.idx, hn, fun hne => absurd rfl hne, fun _ => rfl⟩
  | qTxEmpty =>
    cases h
    obtain ⟨x, hx⟩ := afterTxEmpty_controlAndIndex u
    exact ⟨u.nacked, x, hx, fun _ => rfl, fun hne => absurd rfl hne⟩
  | qCtMaster => exact absurd rfl hm
  | _ => cases hq

/-- After a received byte is stored IDX counts on, and RESULT stays (R167). -/
theorem afterRecvByte_controlOnly {u t : State} (h : afterRecvByte u = .next t) :
    ∃ x b, ControlOnly { u with idx := x, buf := b } t ∧ t.result = u.result := by
  obtain ⟨v, hv, rfl⟩ := withOperand_next h
  obtain ⟨-, rfl⟩ := State.bufWrite_cases hv
  refine ⟨u.idx + 1, Memory.write bufBlank u.buf u.bufIndex u.rsp, ?_⟩
  obtain e | ⟨-, -, e⟩ | ⟨-, -, e⟩ := afterStored_cases
    { u with buf := Memory.write bufBlank u.buf u.bufIndex u.rsp } <;> rw [e] <;> exact ⟨⟨_, _, _, _, rfl⟩, rfl⟩

/-! ### The frames -/

/-- Settles O34: the call is served, and the block's move after it is `ControlOnly`. -/
theorem plainActionFrame : Obligations.PlainActionFrame := by
  intro s t i hi h
  have hcmd : i.isCommand = false := by obtain rfl | ⟨a, n, rfl⟩ | ⟨b, rfl⟩ | ⟨e, rfl⟩ := hi <;> rfl
  have hstop : i ≠ .busStop := by rintro rfl; simp at hi
  have hdev := exec_sameDevice hcmd hstop h
  obtain ⟨-, ha⟩ | ⟨-, rfl⟩ := exec_primitive_cases hcmd h
  · obtain ⟨⟨p, f, w, r, rfl⟩, hr⟩ := plainAction_controlOnly hi ha
    exact ⟨⟨rfl, rfl, rfl, rfl⟩, ⟨rfl, rfl, rfl, rfl⟩, ⟨rfl, rfl⟩, rfl, rfl, hr, rfl, fun _ => rfl, hdev⟩
  · exact ⟨⟨rfl, rfl, rfl, rfl⟩, ⟨rfl, rfl, rfl, rfl⟩, ⟨rfl, rfl⟩, rfl, rfl, rfl, rfl, fun _ => rfl, hdev⟩

/-- The stop changes the reference device only at latched addresses (R76). -/
theorem memRead_stop_other {e : Env} {a : Nat} (h : ∀ c ∈ e.latch, c.1 ≠ a) : e.stop.memRead a = e.memRead a := by
  by_cases hl : e.mode = .wData ∧ e.latch ≠ []
  · rw [ReferenceEnvironment.stop_of_latched hl]
    exact Env.memRead_commit_other e.latch e h
  · rw [ReferenceEnvironment.stop_of_not_latched hl]
    rfl

/-- The block's own stop in `U3_CHECK` is that of a refused address (R143). -/
theorem nacked_of_stop_in_check {s : State} (hp : s.phase = .u3Check) (hc : s.nextCall = .next (some .busStop)) :
    s.nacked = true := by
  by_contra hn
  simp only [State.nextCall, hp, hn, if_false] at hc
  obtain h | h := eq_of_due hc <;> cases h

/-- Of RESULT the stop leaves all but what the refused address of step 3 records (R103, R143). -/
theorem exec_stop_frame {s t : State} (h : exec .busStop s = .next t) :
    SameFrame s t ∧ SameOperands s t ∧ SameStatusBits s t ∧ t.idx = s.idx ∧ t.nacked = s.nacked ∧ t.pcnt = s.pcnt ∧
    (¬ (s.phase = .u3Check ∧ s.nacked = true) → t.result = s.result) ∧ SameBuf s t ∧
    (s.env.kind = .reference → ∀ a, (∀ c ∈ s.env.latch, c.1 ≠ a) → t.env.memRead a = s.env.memRead a) := by
  have hdev : s.env.kind = .reference → ∀ a, (∀ c ∈ s.env.latch, c.1 ≠ a) → t.env.memRead a = s.env.memRead a := by
    intro hk a ha
    rw [exec_env rfl h, ReferenceEnvironment.serve_env_reference hk]
    exact memRead_stop_other ha
  obtain ⟨hc, ha⟩ | ⟨-, rfl⟩ := exec_primitive_cases rfl h
  · have hresult : ¬ (s.phase = .u3Check ∧ s.nacked = true) → t.result = s.result := by
      intro hne
      cases ha
      exact afterStop_result (u := s.serve .busStop) fun hp => hne ⟨hp, nacked_of_stop_in_check hp hc⟩
    obtain ⟨p, f, w, r, rfl⟩ : ControlOnly (s.serve .busStop) t := by cases ha; exact afterStop_controlOnly _
    exact ⟨⟨rfl, rfl, rfl, rfl⟩, ⟨rfl, rfl, rfl, rfl⟩, ⟨rfl, rfl⟩, rfl, rfl, rfl, hresult, fun _ => rfl, hdev⟩
  · exact ⟨⟨rfl, rfl, rfl, rfl⟩, ⟨rfl, rfl, rfl, rfl⟩, ⟨rfl, rfl⟩, rfl, rfl, rfl, fun _ => rfl, fun _ => rfl, hdev⟩

/-- The clear goes back to the top of the poll loop, which counts one more attempt or ends with `Timeout` (R108, R204). -/
theorem exec_clearNack_frame {s t : State} (h : exec .busClearNack s = .next t) :
    SameFrame s t ∧ SameOperands s t ∧ t.idx = s.idx ∧ t.nacked = s.nacked ∧ t.wcnt = s.wcnt ∧
    (t.busy = s.busy ∨ t.result = .timeout) ∧ SameBuf s t ∧ SameDevice s t := by
  have hdev : SameDevice s t := exec_sameDevice (i := .busClearNack) rfl (by decide) h
  obtain ⟨-, ha⟩ | ⟨-, rfl⟩ := exec_primitive_cases rfl h
  · cases ha
    obtain e | e | e := afterClearNack_cases (s.serve .busClearNack) <;> rw [e] at hdev ⊢
    · exact ⟨⟨rfl, rfl, rfl, rfl⟩, ⟨rfl, rfl, rfl, rfl⟩, rfl, rfl, rfl, .inl rfl, fun _ => rfl, hdev⟩
    · exact ⟨⟨rfl, rfl, rfl, rfl⟩, ⟨rfl, rfl, rfl, rfl⟩, rfl, rfl, rfl, .inr rfl, fun _ => rfl, hdev⟩
    · exact ⟨⟨rfl, rfl, rfl, rfl⟩, ⟨rfl, rfl, rfl, rfl⟩, rfl, rfl, rfl, .inl rfl, fun _ => rfl, hdev⟩
  · exact ⟨⟨rfl, rfl, rfl, rfl⟩, ⟨rfl, rfl, rfl, rfl⟩, rfl, rfl, rfl, .inl rfl, fun _ => rfl, hdev⟩

/-- Settles O35, one action after the other. -/
theorem stopAndClearFrame : Obligations.StopAndClearFrame := fun _ _ => ⟨exec_stop_frame, exec_clearNack_frame⟩

/-- Settles O36: `query_controlOnly` names what each query but `q_ct_master` may move; that one keeps NACKED. -/
theorem queryFrame : Obligations.QueryFrame := by
  intro s t i hq h
  have hcmd : i.isCommand = false := by cases i <;> first | rfl | cases hq
  have hbuf : SameBuf s t := by
    obtain e | ⟨-, rfl, -⟩ := exec_buf hcmd h
    · intro a; rw [e]
    · cases hq
  have hstop : i ≠ .busStop := by rintro rfl; cases hq
  refine ⟨exec_sameFrame hcmd h, hbuf, exec_sameDevice hcmd hstop h, ?_⟩
  obtain ⟨-, ha⟩ | ⟨-, rfl⟩ := exec_primitive_cases hcmd h
  · by_cases hm : i = .qCtMaster
    · subst hm
      cases ha
      exact ⟨fun hne => absurd rfl hne, fun _ => (afterCtMaster_frame _).nacked, fun _ hne => absurd rfl hne⟩
    · obtain ⟨n, x, ⟨p, f, w, r, rfl⟩, hn, hx⟩ := query_controlOnly hq hm ha
      exact ⟨fun _ => ⟨⟨rfl, rfl, rfl, rfl⟩, ⟨rfl, rfl⟩, rfl⟩, hn, fun htx _ => hx htx⟩
  · exact ⟨fun _ => ⟨⟨rfl, rfl, rfl, rfl⟩, ⟨rfl, rfl⟩, rfl⟩, fun _ => rfl, fun _ _ => rfl⟩

/-- Settles O37: the received byte is written at `CUR + IDX`, and the block's move after it counts IDX. -/
theorem receiveFrame : Obligations.ReceiveFrame := by
  intro s t h
  have hdev : SameDevice s t := exec_sameDevice (i := .busRecvByte) rfl (by decide) h
  have hbyte : ∀ a, a ≠ s.cur.toNat + s.idx.toNat → Memory.read bufBlank t.buf a = Memory.read bufBlank s.buf a := by
    intro a ha
    obtain e | ⟨-, -, v, e⟩ := exec_buf rfl h <;> rw [e]
    exact Memory.read_write_other ha _ _ _
  have hbuf : s.phase ≠ .r7Recv → SameBuf s t := by
    intro hp a
    obtain e | ⟨hp', -⟩ := exec_buf rfl h
    · rw [e]
    · exact absurd hp' hp
  obtain ⟨-, ha⟩ | ⟨-, rfl⟩ := exec_primitive_cases rfl h
  · obtain ⟨x, b, ⟨p, f, w, r, rfl⟩, hr⟩ := afterRecvByte_controlOnly ha
    exact ⟨⟨rfl, rfl, rfl, rfl⟩, ⟨rfl, rfl, rfl, rfl⟩, ⟨rfl, rfl⟩, rfl, hr, rfl, hbyte, hbuf, hdev⟩
  · exact ⟨⟨rfl, rfl, rfl, rfl⟩, ⟨rfl, rfl, rfl, rfl⟩, ⟨rfl, rfl⟩, rfl, rfl, rfl, hbyte, hbuf, hdev⟩

end Sys2Proof.Proofs.BusFrames
end

section
/-! Termination with both bounds a number (R121, R183, R200, R227): within the caller's contract the block's own step always
exists, and it takes from a quantity that cannot fall forever: bytes left, attempts left, bytes of the unit, phases of the
unit or attempt, queries of the wait. -/

namespace Sys2Proof.Proofs.Termination

open Sys2Proof Sys2Proof.Machine Sys2Proof.Claims Sys2Proof.Proofs.Moves Sys2Proof.Proofs.Memories
  Sys2Proof.Proofs.ControlInvariant Sys2Proof.Proofs.BusFrames

/-! ### The quantity that falls -/

/-- The phases of a unit before its data phase. -/
def beforeData : Phase → Bool
  | .u1Start | .u1Wait | .u2Addr | .u2Wait | .u3Check | .u4Hi | .u4HiWait | .u4Lo | .u4LoWait
  | .r5Start | .r5Wait | .r6Addr | .r6Wait | .r7Check => true
  | _ => false

/-- How many phases are still to come, at most, before the data phase, of a byte, of the stop, or of a poll attempt. -/
def phasesLeft : Phase → Nat
  | .u1Start => 14 | .u1Wait => 13 | .u2Addr => 12 | .u2Wait => 11 | .u3Check => 10
  | .u4Hi => 9 | .u4HiWait => 8 | .u4Lo => 7 | .u4LoWait => 6
  | .r5Start => 5 | .r5Wait => 4 | .r6Addr => 3 | .r6Wait => 2 | .r7Check => 1
  | .w5Data => 2 | .w5Wait => 1
  | .r7AckOn | .r7AckOff => 3 | .r7Wait => 2 | .r7Recv => 1
  | .uStop => 2 | .uStopWait => 1
  | .pStart => 7 | .pStartWait => 6 | .pAddr => 5 | .pAddrWait => 4 | .pStop => 3 | .pStopWait => 2 | .pClear => 1
  | .idle => 0

/-- How many poll attempts may still begin for the current unit; before the poll, one more than POLL_LIMIT. -/
def attemptsLeft (s : State) : Nat :=
  if s.phase.inPoll then s.cfg.pollLimit.value.getD 0 - s.pcnt else s.cfg.pollLimit.value.getD 0 + 1

/-- How many bytes the unit has still to move; before the data phase, more than any unit has. -/
def bytesToMove (s : State) : Nat :=
  if beforeData s.phase then 2 ^ 16 else if s.phase.inData then s.chunk.toNat - s.idx.toNat else 0

/-- How many queries are left to the wait, two a round, and one of a round of two whose first is answered. -/
def queriesLeft (s : State) : Nat :=
  2 * (s.cfg.waitLimit.value.getD 0 - s.wcnt) + if s.first.isSome then 0 else 1

/-- What every step of a running command takes from, in lexicographic order. -/
def effort (s : State) : ℕ ×ₗ ℕ ×ₗ ℕ ×ₗ ℕ ×ₗ ℕ :=
  toLex (s.rem.toNat, toLex (attemptsLeft s, toLex (bytesToMove s, toLex (phasesLeft s.phase, queriesLeft s))))

theorem effort_lt_iff {s t : State} : effort t < effort s ↔
    t.rem.toNat < s.rem.toNat ∨ t.rem.toNat = s.rem.toNat ∧
    (attemptsLeft t < attemptsLeft s ∨ attemptsLeft t = attemptsLeft s ∧
    (bytesToMove t < bytesToMove s ∨ bytesToMove t = bytesToMove s ∧
    (phasesLeft t.phase < phasesLeft s.phase ∨ phasesLeft t.phase = phasesLeft s.phase ∧
      queriesLeft t < queriesLeft s))) := by
  simp only [effort, Prod.Lex.toLex_lt_toLex]

/-- The step ends the command, or takes from its effort. -/
def Progress (s t : State) : Prop := t.busy = false ∨ effort t < effort s

/-! ### What each kind of move takes -/

theorem attemptsLeft_inPoll {s : State} (h : s.phase.inPoll = true) :
    attemptsLeft s = s.cfg.pollLimit.value.getD 0 - s.pcnt := if_pos h

theorem attemptsLeft_notPoll {s : State} (h : s.phase.inPoll = false) :
    attemptsLeft s = s.cfg.pollLimit.value.getD 0 + 1 := if_neg (by simp [h])

/-- `q` comes after `p` in the same part of a unit or of an attempt. -/
abbrev Below (q p : Phase) : Prop :=
  q.inPoll = p.inPoll ∧ beforeData q = beforeData p ∧ q.inData = p.inData ∧ phasesLeft q < phasesLeft p

theorem below_of_waitAfter {p q : Phase} (h : waitAfter p = some q) : Below q p := by
  cases p <;> cases h <;> decide

theorem below_of_satisfiedTo {p q : Phase} (h : satisfiedTo p = some q) : Below q p := by
  cases p <;> cases h <;> decide

theorem effort_lt_of_below {s : State} {q p : Phase} (hs : s.phase = p) (h : Below q p) (f : Option Bool) (w : Nat)
    (n : Bool) (r : Result) :
    effort { s with phase := q, first := f, wcnt := w, nacked := n, result := r } < effort s := by
  subst hs
  obtain ⟨hpoll, hbefore, hdata, hless⟩ := h
  simp only [effort_lt_iff, attemptsLeft, bytesToMove, hpoll, hbefore, hdata, hless]
  simp

/-- The middle of a unit: before the data phase, or in it with a byte still to move. -/
structure MidUnit (s : State) : Prop where
  notPoll : s.phase.inPoll = false
  bytes : 0 < bytesToMove s

theorem bytesToMove_before {s : State} (h : beforeData s.phase = true) : bytesToMove s = 2 ^ 16 := by
  simp only [bytesToMove, h, if_true]

theorem bytesToMove_inData {s : State} (hb : beforeData s.phase = false) (hd : s.phase.inData = true) :
    bytesToMove s = s.chunk.toNat - s.idx.toNat := by
  simp [bytesToMove, hb, hd]

theorem midUnit_of_phase {s : State} (h : s.Control) (hp : s.phase.inPoll = false)
    (hd : beforeData s.phase = true ∨ s.phase.inData = true) : MidUnit s := by
  refine ⟨hp, ?_⟩
  by_cases hb : beforeData s.phase = true
  · rw [bytesToMove_before hb]; decide
  · have hdata := hd.resolve_left hb
    have hidx := h.index hdata
    rw [bytesToMove_inData (by simpa using hb) hdata]
    bv_omega

theorem midUnit_of_unitWaits {s : State} (h : s.Control) (hw : s.phase ∈ unitWaits) : MidUnit s := by
  have classes : ∀ p ∈ unitWaits, p.inPoll = false ∧ (beforeData p = true ∨ p.inData = true) := by decide
  obtain ⟨hp, hd⟩ := classes _ hw
  exact midUnit_of_phase h hp hd

/-- The stop step has no byte left to move. -/
theorem effort_uStop_lt {s : State} (h : MidUnit s) (x : Half) (f : Option Bool) (r : Result) :
    effort { s with idx := x, phase := .uStop, first := f, result := r } < effort s := by
  refine effort_lt_iff.2 (.inr ⟨rfl, .inr ⟨?_, .inl h.bytes⟩⟩)
  rw [attemptsLeft_notPoll h.notPoll]
  exact attemptsLeft_notPoll rfl

/-- The next byte's phases have a byte fewer to move. -/
theorem effort_nextByte_lt {s : State} {q : Phase} {x : Half} (hs : s.phase.inPoll = false) (hq : q.inPoll = false)
    (hb : beforeData q = false) (hd : q.inData = true) (hx : s.chunk.toNat - x.toNat < bytesToMove s)
    (f : Option Bool) (w : Nat) :
    effort { s with idx := x, phase := q, first := f, wcnt := w } < effort s := by
  refine effort_lt_iff.2 (.inr ⟨rfl, .inr ⟨?_, .inl ?_⟩⟩)
  · rw [attemptsLeft_notPoll hs]
    exact attemptsLeft_notPoll hq
  · rw [bytesToMove_inData (s := { s with idx := x, phase := q, first := f, wcnt := w }) hb hd]
    exact hx

/-- Before the data phase IDX counts nothing. -/
theorem effort_withIdx {s : State} (h : s.phase.inData = false) (x : Half) : effort { s with idx := x } = effort s := by
  simp [effort, bytesToMove, h, attemptsLeft, queriesLeft]

theorem effort_countRound_lt {s : State} {w : Nat} (hw : s.cfg.waitLimit.value = some w) (h : s.roundDue) :
    effort s.countRound < effort s := by
  have hround := h w hw
  refine effort_lt_iff.2 (.inr ⟨rfl, .inr ⟨rfl, .inr ⟨rfl, .inr ⟨rfl, ?_⟩⟩⟩⟩)
  simp only [queriesLeft, State.countRound, hw, Option.getD_some, Option.isSome_none, Bool.false_eq_true, if_false]
  omega

theorem effort_holdFirst_lt {s : State} (h : s.first = none) : effort s.holdFirst < effort s := by
  refine effort_lt_iff.2 (.inr ⟨rfl, .inr ⟨rfl, .inr ⟨rfl, .inr ⟨rfl, ?_⟩⟩⟩⟩)
  simp [queriesLeft, State.holdFirst, h]

/-! ### What the loops take -/

/-- The advance takes the unit's bytes, at least one, from REM (R136, R183). -/
theorem advance_loopTop_progress {s : State} (h : Running s) : Progress s s.advance.loopTop := by
  obtain ⟨-, e⟩ | ⟨-, e⟩ := State.loopTop_cases s.advance <;> rw [e]
  · exact .inl rfl
  · obtain ⟨hone, hrem, -⟩ := running_chunk h
    have hless : (s.rem - s.chunk).toNat < s.rem.toNat := by bv_omega
    exact .inr (effort_lt_iff.2 (.inl hless))

/-- One more attempt is one attempt fewer to begin (R200). -/
theorem pollTop_progress {s : State} {p : Nat} (hp : s.cfg.pollLimit.value = some p) (hs : s.phase.inPoll = true) :
    Progress s s.pollTop := by
  obtain ⟨-, e⟩ | ⟨hlim, e⟩ := State.pollTop_cases s <;> rw [e]
  · exact .inl rfl
  · have hless := not_reached_iff.1 hlim p hp
    refine .inr (effort_lt_iff.2 (.inr ⟨rfl, .inl ?_⟩))
    rw [attemptsLeft_inPoll hs, attemptsLeft_inPoll rfl, hp, Option.getD_some]
    exact Nat.sub_lt_sub_left hless (Nat.lt_succ_self _)

theorem unitReturn_progress {s : State} (h : Running s) (hs : s.phase.inPoll = false) : Progress s s.unitReturn := by
  obtain ⟨-, -, e⟩ | ⟨-, -, e⟩ | ⟨-, e⟩ := State.unitReturn_cases s <;> rw [e]
  · exact advance_loopTop_progress h
  · rw [State.pollStart_eq]
    refine .inr (effort_lt_iff.2 (.inr ⟨rfl, .inl ?_⟩))
    rw [attemptsLeft_notPoll hs, attemptsLeft_inPoll rfl]
    exact Nat.lt_succ_of_le (Nat.sub_le _ _)
  · exact .inl rfl

theorem pollDecide_progress {s : State} (h : Running s) (hs : s.phase = .pStopWait) : Progress s s.pollDecide := by
  obtain ⟨-, -, e⟩ | ⟨-, -, e⟩ | ⟨-, e⟩ := State.pollDecide_cases s <;> rw [e]
  · exact .inr (effort_lt_of_below hs (by decide) none s.wcnt s.nacked s.result)
  · exact advance_loopTop_progress h
  · exact .inl rfl

/-! ### The data phases -/

theorem addressSent_progress {s : State} (hs : s.phase = .u4LoWait) : Progress s (addressSent s) := by
  have hbytes : bytesToMove s = 2 ^ 16 := bytesToMove_before (by rw [hs]; rfl)
  obtain ⟨-, e⟩ | ⟨-, e⟩ := addressSent_cases s <;> rw [e]
  · rw [Progress, ← effort_withIdx (s := s) (by rw [hs]; rfl) 0]
    exact .inr (effort_lt_of_below (s := { s with idx := 0 }) hs (by decide) none s.wcnt s.nacked s.result)
  · exact .inr (effort_nextByte_lt (by rw [hs]; rfl) rfl rfl rfl (by bv_omega) none s.wcnt)

theorem startReading_progress {s : State} (hs : s.phase = .r7Check) : Progress s (startReading s) := by
  have hbytes : bytesToMove s = 2 ^ 16 := bytesToMove_before (by rw [hs]; rfl)
  have hpoll : s.phase.inPoll = false := by rw [hs]; rfl
  obtain ⟨-, e⟩ | ⟨-, e⟩ := startReading_cases s <;> rw [e] <;>
    exact .inr (effort_nextByte_lt hpoll rfl rfl rfl (by bv_omega) none s.wcnt)

/-- In the data phases the byte counted by IDX is one fewer to move. -/
theorem idx_succ_lt {s : State} (hb : beforeData s.phase = false) (hd : s.phase.inData = true) (hi : s.idx < s.chunk) :
    s.chunk.toNat - (s.idx + 1).toNat < bytesToMove s := by
  rw [bytesToMove_inData hb hd]
  bv_omega

theorem dataSent_progress {s : State} (hs : s.phase = .w5Wait) (hi : s.idx < s.chunk) : Progress s (dataSent s) := by
  have hpoll : s.phase.inPoll = false := by rw [hs]; rfl
  have hless := idx_succ_lt (by rw [hs]; rfl) (by rw [hs]; rfl) hi
  obtain ⟨-, e⟩ | e := dataSent_cases s <;> rw [e]
  · exact .inr (effort_nextByte_lt hpoll rfl rfl rfl hless none s.wcnt)
  · exact .inr (effort_uStop_lt ⟨hpoll, by omega⟩ _ none s.result)

theorem afterStored_progress {s : State} (hs : s.phase = .r7Recv) (hi : s.idx < s.chunk) :
    Progress s (afterStored s) := by
  have hpoll : s.phase.inPoll = false := by rw [hs]; rfl
  have hless := idx_succ_lt (by rw [hs]; rfl) (by rw [hs]; rfl) hi
  obtain e | ⟨-, -, e⟩ | ⟨-, -, e⟩ := afterStored_cases s <;> rw [e]
  · exact .inr (effort_uStop_lt ⟨hpoll, by omega⟩ _ none s.result)
  · exact .inr (effort_nextByte_lt hpoll rfl rfl rfl hless none s.wcnt)
  · exact .inr (effort_nextByte_lt hpoll rfl rfl rfl hless none 0)

theorem unitAddressed_progress {s : State} (hs : s.phase = .u2Wait) (hm : MidUnit s) : Progress s (unitAddressed s) := by
  obtain ⟨-, e⟩ | ⟨-, e⟩ := unitAddressed_cases s <;> rw [e]
  · exact .inr (effort_uStop_lt (s := s.takeNacked) ⟨hm.notPoll, hm.bytes⟩ s.idx none _)
  · exact .inr (effort_lt_of_below hs (by decide) none s.wcnt s.flag s.result)

/-! ### Every move of the block -/

/-- A move after the end of a round takes the round's queries too. -/
theorem progress_of_countRound {u t : State} {w : Nat} (hw : u.cfg.waitLimit.value = some w) (h : u.roundDue)
    (ht : Progress u.countRound t) : Progress u t :=
  ht.imp_right fun hlt => hlt.trans (effort_countRound_lt hw h)

/-- The block's moves are progress, where the second answer of a round ends it. -/
theorem blockMove_progress {u t : State} {w p : Nat} (hu : u.Control) (hw : u.cfg.waitLimit.value = some w)
    (hp : u.cfg.pollLimit.value = some p) (hsecond : u.first ≠ none → t.first = none) (hm : BlockMove u t) :
    Progress u t := by
  have hr := control_running hu (blockMove_ne_idle hm)
  have hcount : Running u.countRound := { hr with }
  have counted {p : Phase} {t : State} (hph : u.phase = p) (hwait : p.isWait = true) (ht : Progress u.countRound t) :
      Progress u t := progress_of_countRound hw (hu.waiting (hph ▸ hwait)) ht
  cases hm with
  | enterWait h => exact .inr (effort_lt_of_below rfl (below_of_waitAfter h) none 0 u.nacked u.result)
  | holdFirst h =>
    have hfirst : u.first = none := by
      by_contra hne
      cases hsecond hne
    exact .inr (effort_holdFirst_lt hfirst)
  | again h _ => exact .inr (effort_countRound_lt hw (hu.waiting h))
  | satisfied h =>
    exact counted rfl (isWait_of_satisfiedTo h).1
      (.inr (effort_lt_of_below (s := u.countRound) rfl (below_of_satisfiedTo h) none _ _ _))
  | unitLate h =>
    obtain ⟨hpoll, hbytes⟩ := midUnit_of_unitWaits hu h
    exact counted rfl (isWait_of_mem_unitWaits h) (.inr (effort_uStop_lt (s := u.countRound) ⟨hpoll, hbytes⟩ _ none _))
  | pollLate h =>
    obtain h | h := h
    all_goals
      exact counted h rfl (.inr (effort_lt_of_below (s := u.countRound) h (by decide) none _ _ _))
  | unitAddressed h =>
    obtain ⟨hpoll, hbytes⟩ := midUnit_of_unitWaits hu (by rw [h]; decide)
    exact counted h rfl (unitAddressed_progress (s := u.countRound) h ⟨hpoll, hbytes⟩)
  | refusedCheck h hn => exact absurd (hu.acked h) (by simp [hn])
  | notActive h =>
    have hmid : MidUnit u := by obtain h | h := h <;> exact midUnit_of_phase hu (by rw [h]; rfl) (.inl (by rw [h]; rfl))
    exact .inr (effort_uStop_lt hmid _ none _)
  | active h => exact .inr (effort_lt_of_below h (by decide) none u.wcnt u.nacked u.result)
  | startReading h => exact startReading_progress h
  | addressSent h => exact counted h rfl (addressSent_progress (s := u.countRound) h)
  | dataSent h => exact counted h rfl (dataSent_progress (s := u.countRound) h (hu.index (by rw [h]; rfl)))
  | received h _ =>
    exact afterStored_progress (s := { u with buf := Memory.write bufBlank u.buf u.bufIndex u.rsp }) h
      (hu.index (by rw [h]; rfl))
  | unitReturn h => exact counted h rfl (unitReturn_progress hcount (show u.phase.inPoll = false by rw [h]; rfl))
  | stopLate h =>
    exact counted h rfl (unitReturn_progress (s := { u.countRound with result := firstFailure u.result .timeout })
      { hcount with } (show u.phase.inPoll = false by rw [h]; rfl))
  | pollAddressed h =>
    exact counted h rfl
      (.inr (effort_lt_of_below (s := u.countRound) h (by decide) none _ u.flag _))
  | pollDecide h => exact counted h rfl (pollDecide_progress hcount h)
  | pollStopLate h => exact .inl rfl
  | pollTop h => exact pollTop_progress hp (by rw [h]; rfl)

/-! ### The second answer of a round ends it (R120) -/

theorem loopTop_first (s : State) : s.loopTop.first = none := by
  obtain ⟨-, e⟩ | ⟨-, e⟩ := State.loopTop_cases s <;> rw [e]
  rfl

theorem unitReturn_first (s : State) : s.unitReturn.first = none := by
  obtain ⟨-, -, e⟩ | ⟨-, -, e⟩ | ⟨-, e⟩ := State.unitReturn_cases s <;> rw [e]
  · exact loopTop_first s.advance
  · rw [State.pollStart_eq]
  · rfl

theorem pollDecide_first (s : State) : s.pollDecide.first = none := by
  obtain ⟨-, -, e⟩ | ⟨-, -, e⟩ | ⟨-, e⟩ := State.pollDecide_cases s <;> rw [e]
  · rfl
  · exact loopTop_first s.advance
  · rfl

theorem unitAddressed_first (s : State) : (unitAddressed s).first = none := by
  obtain ⟨-, e⟩ | ⟨-, e⟩ := unitAddressed_cases s <;> rw [e] <;> rfl

theorem afterAdNack_first {u : State} (h : u.phase = .u2Wait ∨ u.phase = .pAddrWait) : (afterAdNack u).first = none := by
  obtain h | h := h <;> simp only [afterAdNack, h]
  · exact endRound_of_ways (P := fun t => t.first = none) (unitAddressed_first _) rfl rfl
  · exact endRound_of_ways (P := fun t => t.first = none) rfl rfl rfl

theorem afterCtMaster_first {u : State}
    (h : u.phase = .u3Check ∨ u.phase = .r7Check ∨ u.phase = .uStopWait ∨ u.phase = .pStopWait) :
    (afterCtMaster u).first = none := by
  obtain h | h | h | h := h <;> simp only [afterCtMaster, h]
  · split <;> rfl
  · split <;> rfl
  · exact endRound_of_ways (P := fun t => t.first = none) (unitReturn_first _) (unitReturn_first _) rfl
  · exact endRound_of_ways (P := fun t => t.first = none) (pollDecide_first _) rfl rfl

/-- With the first answer held, the next call is the round's second query, and its answer ends the round. -/
theorem secondAnswer_first {u t : State} {i : Instr} (hu : u.Control) (hf : u.first ≠ none)
    (hc : u.nextCall = .next (some i)) (h : blockAfter i u = .next t) : t.first = none := by
  have hsome : u.first.isSome = true := Option.isSome_iff_ne_none.2 hf
  have htwo := hu.sample hsome
  cases hp : u.phase <;> rw [hp] at htwo
  case u2Wait | pAddrWait =>
    simp only [State.nextCall, hp, State.due, hsome, if_true] at hc
    cases hc
    cases h
    exact afterAdNack_first (by simp [hp])
  case u3Check | r7Check | uStopWait | pStopWait =>
    have hn : u.phase = .u3Check → u.nacked = false := hu.acked
    simp only [State.nextCall, hp, State.due, hsome, if_true, hn, Bool.false_eq_true, if_false] at hc
    cases hc
    cases h
    exact afterCtMaster_first (by simp [hp])
  all_goals cases htwo

/-! ### The caller's contract along a move (R255, R263) -/

/-- What is left of the command's window of BUF lies inside what was left of it. -/
def WindowShrinks (u t : State) : Prop :=
  u.cur.toNat ≤ t.cur.toNat ∧ t.cur.toNat + t.rem.toNat ≤ u.cur.toNat + u.rem.toNat

theorem windowShrinks_of_eq {u t : State} (hc : t.cur = u.cur) (hr : t.rem = u.rem) : WindowShrinks u t := by
  rw [WindowShrinks, hc, hr]
  exact ⟨Nat.le_refl _, Nat.le_refl _⟩

/-- The advance leaves out the unit's bytes (R136). -/
theorem advance_loopTop_window {s : State} (h : Running s) : WindowShrinks s s.advance.loopTop := by
  have hadvance : WindowShrinks s s.advance := by
    obtain ⟨-, hchunk, -⟩ := running_chunk h
    have hcursor := h.cursor
    simp only [WindowShrinks, State.advance]
    bv_omega
  obtain ⟨-, e⟩ | ⟨-, e⟩ := State.loopTop_cases s.advance <;> rw [e] <;> exact hadvance

theorem unitReturn_window {s : State} (h : Running s) : WindowShrinks s s.unitReturn := by
  obtain ⟨-, -, e⟩ | ⟨-, -, e⟩ | ⟨-, e⟩ := State.unitReturn_cases s <;> rw [e]
  · exact advance_loopTop_window h
  · rw [State.pollStart_eq]
    exact windowShrinks_of_eq rfl rfl
  · exact windowShrinks_of_eq rfl rfl

theorem pollDecide_window {s : State} (h : Running s) : WindowShrinks s s.pollDecide := by
  obtain ⟨-, -, e⟩ | ⟨-, -, e⟩ | ⟨-, e⟩ := State.pollDecide_cases s <;> rw [e]
  · exact windowShrinks_of_eq rfl rfl
  · exact advance_loopTop_window h
  · exact windowShrinks_of_eq rfl rfl

theorem blockMove_window {u t : State} (h : Running u) (hm : BlockMove u t) : WindowShrinks u t := by
  cases hm with
  | unitAddressed _ =>
    obtain ⟨-, e⟩ | ⟨-, e⟩ := unitAddressed_cases u.countRound <;> rw [e] <;> exact windowShrinks_of_eq rfl rfl
  | dataSent _ =>
    obtain ⟨-, e⟩ | e := dataSent_cases u.countRound <;> rw [e] <;> exact windowShrinks_of_eq rfl rfl
  | received _ _ =>
    obtain e | ⟨-, -, e⟩ | ⟨-, -, e⟩ := afterStored_cases
      { u with buf := Memory.write bufBlank u.buf u.bufIndex u.rsp } <;> rw [e] <;> exact windowShrinks_of_eq rfl rfl
  | unitReturn _ => exact unitReturn_window (s := u.countRound) { h with }
  | stopLate _ =>
    exact unitReturn_window (s := { u.countRound with result := firstFailure u.result .timeout }) { h with }
  | pollDecide _ => exact pollDecide_window (s := u.countRound) { h with }
  | pollTop _ =>
    obtain ⟨-, e⟩ | ⟨-, e⟩ := State.pollTop_cases u <;> rw [e] <;> exact windowShrinks_of_eq rfl rfl
  | _ => exact windowShrinks_of_eq rfl rfl

/-- A move keeps the contract: the window only shrinks, and a write's moves leave BUF. -/
theorem blockMove_contract {u t : State} (hu : u.Control) (hc : u.Contract) (hm : BlockMove u t) : t.Contract := by
  have hr := control_running hu (blockMove_ne_idle hm)
  obtain ⟨hcfg, hop, -, -⟩ := blockMove_sameFrame hm
  obtain ⟨hstart, hend⟩ := blockMove_window hr hm
  constructor
  · intro _
    rw [hcfg]
    exact hend.trans (hc.fits hr.busy)
  · intro _ hwrite i hi hi'
    have hwrite : u.isRead = false := by rwa [State.isRead, hop] at hwrite
    have hbuf : t.buf = u.buf := by
      obtain hs | ⟨hp, -, -⟩ := blockMove_store hm
      · exact hs.buf
      · have hread := hu.readPhase (by rw [hp]; rfl)
        simp [hwrite] at hread
    rw [hbuf]
    exact hc.filled hr.busy hwrite i (hstart.trans hi) (hi'.trans_le hend)

/-! ### The next step exists -/

/-- The current data byte lies in the window of BUF (R55). -/
theorem bufIndex_in_window {s : State} (h : Running s) (hi : s.idx < s.chunk) :
    s.cur.toNat ≤ s.bufIndex ∧ s.bufIndex < s.cur.toNat + s.rem.toNat := by
  obtain ⟨-, hchunk, -⟩ := running_chunk h
  have hlt : s.idx.toNat < s.chunk.toNat := hi
  unfold State.bufIndex
  omega

/-- The byte of a write's data phase can be read. -/
theorem bufRead_in_contract {s : State} (h : s.Control) (hc : s.Contract) (hp : s.phase = .w5Data) :
    ∃ b, s.bufRead s.bufIndex = .next b := by
  have hr := control_running h (by rw [hp]; nofun)
  obtain ⟨hlo, hhi⟩ := bufIndex_in_window hr (h.index (by rw [hp]; rfl))
  have hwrite : s.isRead = false := h.writePhase (by rw [hp]; rfl)
  obtain ⟨b, hb⟩ := Option.ne_none_iff_exists'.1 (hc.filled hr.busy hwrite _ hlo hhi)
  exact ⟨b, HostInterface.bufRead_of_listed (hhi.trans_le (hc.fits hr.busy)) hb⟩

/-- Outside `IDLE` the block has a next call. -/
theorem nextCall_exists {s : State} (h : s.Control) (hc : s.Contract) (hn : s.phase ≠ .idle) :
    ∃ i, s.nextCall = .next (some i) := by
  cases hp : s.phase
  case idle => exact absurd hp hn
  case w5Data =>
    obtain ⟨b, hb⟩ := bufRead_in_contract h hc hp
    exact ⟨.busSendByte b, by simp only [State.nextCall, hp, hb, withOperand]⟩
  all_goals
    simp only [State.nextCall, hp]
    exact ⟨_, rfl⟩

/-- Only in `R7_RECV` does the block take a byte. -/
theorem phase_of_receive {s : State} (hc : s.nextCall = .next (some .busRecvByte)) : s.phase = .r7Recv := by
  cases hp : s.phase <;> simp only [State.nextCall, hp] at hc
  case r7Recv => rfl
  case w5Data =>
    obtain ⟨b, -, hb⟩ := withOperand_next hc
    cases hb
  case u3Check =>
    split at hc
    · cases hc
    · obtain e | e := eq_of_due hc <;> cases e
  case u2Wait | r7Check | uStopWait | pAddrWait | pStopWait => obtain e | e := eq_of_due hc <;> cases e
  all_goals cases hc

/-- What follows a call stops nowhere but at a received byte that has no place in BUF. -/
theorem blockAfter_exists {u : State} {i : Instr} (h : i = .busRecvByte → u.bufIndex < u.cfg.bufSize) :
    ∃ t, blockAfter i u = .next t := by
  cases i with
  | busRecvByte => exact ⟨_, congrArg (withOperand afterStored) (if_pos (h rfl))⟩
  | _ => exact ⟨_, rfl⟩

/-- A call of the block's own keeps the invariant until the block moves on. -/
theorem control_serve_own {s : State} {i : Instr} (h : s.Control) (hc : s.nextCall = .next (some i)) :
    (s.serve i).Control := by
  refine control_serve h ?_
  rintro (hp | hp) en rfl <;> simp [State.nextCall, hp] at hc

/-- The block's step inside a command that keeps the contract. -/
theorem running_step {s : State} {w p : Nat} (h : s.Control) (hc : s.Contract) (hh : s.host = []) (hb : s.busy = true)
    (hw : s.cfg.waitLimit.value = some w) (hp : s.cfg.pollLimit.value = some p) :
    ∃ t, step s = .next t ∧ t.Contract ∧ SameFrame s t ∧ Progress s t := by
  have hn : s.phase ≠ .idle := h.busyIff.1 hb
  obtain ⟨i, hcall⟩ := nextCall_exists h hc hn
  obtain ⟨t, ht⟩ : ∃ t, blockAfter i (s.serve i) = .next t := by
    refine blockAfter_exists fun hi => ?_
    subst hi
    have hphase := phase_of_receive hcall
    obtain ⟨-, hhi⟩ := bufIndex_in_window (control_running h hn) (h.index (by rw [hphase]; rfl))
    exact hhi.trans_le (hc.fits hb)
  have hstep : step s = .next t := by
    rw [Scope.step_of_host_nil hh, blockTurn_of_call hcall, exec_eq_primitive (isCommand_of_nextCall hcall),
      primitive_of_issues _ hcall, ht]
  have hu : (s.serve i).Control := control_serve_own h hcall
  have hm : BlockMove (s.serve i) t := blockMove_of_after hcall ht
  have hframe : SameFrame (s.serve i) t := blockMove_sameFrame hm
  have hprogress : Progress (s.serve i) t :=
    blockMove_progress hu hw hp (fun hf => secondAnswer_first hu hf hcall ht) hm
  exact ⟨t, hstep, blockMove_contract hu ⟨hc.fits, hc.filled⟩ hm, hframe, hprogress⟩

/-! ### The run -/

theorem run_succ {s t : State} (h : step s = .next t) (n : Nat) :
    Host.Core.run Sys2Proof.core (n + 1) s = Host.Core.run Sys2Proof.core n t := by
  have hcore : Sys2Proof.core.step s = .next t := h
  simp only [Host.Core.run, hcore]

/-- Settles O60, by induction on the effort of the state: a step ends the command or leaves a state of less effort. -/
theorem boundedCommandCompletes : Obligations.BoundedCommandCompletes := by
  intro s w p
  induction s using (InvImage.wf effort wellFounded_lt).induction with
  | _ s ih =>
    intro h hc hh hb hw hp
    obtain ⟨t, hstep, hct, ⟨hcfg, -, hhost, -⟩, hprogress⟩ := running_step h hc hh hb hw hp
    by_cases hbt : t.busy = true
    · have hless : effort t < effort s := hprogress.resolve_left (by simp [hbt])
      obtain ⟨n, e, hrun, hend⟩ := ih t hless (controlIsInvariant s t h hstep) hct (hhost.trans hh) hbt
        (by rw [hcfg, hw]) (by rw [hcfg, hp])
      exact ⟨n + 1, e, (run_succ hstep n).trans hrun, hend⟩
    · have hbt : t.busy = false := by simpa using hbt
      obtain ⟨-, hphase, hdone⟩ := PhaseOrder.commandEndsOnlyAfterStop s t (by simp [hh]) hstep hb hbt
      exact ⟨1, t, run_succ hstep 0, hbt, hdone, hphase⟩

end Sys2Proof.Proofs.Termination
end

section
/-! Page arithmetic (R130 to R133) and the advance after a successful read unit (R136, R181, R183). -/

namespace Sys2Proof.Proofs.PageArithmetic

open Sys2Proof Sys2Proof.Machine Sys2Proof.Claims Sys2Proof.Proofs.Moves

/-! ### The chunk and the start of the next page (R53, R130) -/

/-- The start of the page after `a` is `P - (a mod P)` bytes on (R53). -/
theorem nextPage_eq {P : Nat} (hP : 0 < P) (a : Nat) : (a / P + 1) * P = a + (P - a % P) := by
  have hmod := Nat.mod_lt a hP
  have hdiv := Nat.div_add_mod' a P
  rw [Nat.succ_mul]
  omega

/-- R130 as one equivalence: the lengths up to the chunk are the ones not above `L` that do not pass the start of the next
page. -/
theorem le_chunkLength_iff {P : Nat} (hP : 0 < P) {a L n : Nat} :
    n ≤ chunkLength a L P ↔ n ≤ L ∧ a + n ≤ (a / P + 1) * P := by
  rw [chunkLength, le_min_iff, nextPage_eq hP, Nat.add_le_add_iff_left]

/-- The first law of R132. -/
theorem chunkLength_within {P : Nat} (hP : 0 < P) (a L : Nat) :
    chunkLength a L P ≤ L ∧ a + chunkLength a L P ≤ (a / P + 1) * P :=
  (le_chunkLength_iff hP).1 le_rfl

/-- Settles O45: the closed form is the definition, and the rest is `le_chunkLength_iff` read in both directions. -/
theorem chunkIsLargestInsidePage : Obligations.ChunkIsLargestInsidePage := by
  intro a L k _
  have hP : 0 < 2 ^ k := Nat.two_pow_pos k
  obtain ⟨hle, hpage⟩ := chunkLength_within hP a L
  exact ⟨rfl, hle, hpage, fun n hn ha => (le_chunkLength_iff hP).2 ⟨hn, ha⟩⟩

/-! ### The laws (R132, R133) -/

/-- The whole request is one chunk exactly when it fits in what is left of the page. -/
theorem chunkLength_eq_iff {a L P : Nat} : chunkLength a L P = L ↔ L ≤ P - a % P :=
  min_eq_left_iff

/-- A request that does not pass the start of the next page is one chunk; it may end there (R132, R134). -/
theorem chunkLength_of_le_nextPage {P : Nat} (hP : 0 < P) {a L : Nat} (h : a + L ≤ (a / P + 1) * P) :
    chunkLength a L P = L :=
  le_antisymm (chunkLength_within hP a L).1 ((le_chunkLength_iff hP).2 ⟨le_rfl, h⟩)

/-- An address in the page of `a` is before the start of the next one. -/
theorem lt_nextPage_of_samePage {P : Nat} (hP : 0 < P) {a b : Nat} (h : a / P = b / P) : b < (a / P + 1) * P :=
  (Nat.div_lt_iff_lt_mul hP).1 (h ▸ Nat.lt_succ_self _)

/-- A chunk is empty only for an empty request, since at least one byte of the page is left. -/
theorem chunkLength_eq_zero_iff {P : Nat} (hP : 0 < P) {a L : Nat} : chunkLength a L P = 0 ↔ L = 0 := by
  have hroom : P - a % P ≠ 0 := Nat.sub_ne_zero_of_lt (Nat.mod_lt a hP)
  rw [chunkLength, Nat.min_eq_zero_iff, or_iff_left hroom]

theorem chunkLength_le_min (a L P : Nat) : chunkLength a L P ≤ min L P :=
  min_le_min_left L (Nat.sub_le P _)

/-- A chunk shorter than the request fills the page. -/
theorem nextPage_of_chunkLength_lt {P : Nat} (hP : 0 < P) {a L : Nat} (h : chunkLength a L P < L) :
    a + chunkLength a L P = (a / P + 1) * P := by
  have hroom : chunkLength a L P = P - a % P := min_eq_right (not_le.1 fun hL => h.ne (chunkLength_eq_iff.2 hL)).le
  rw [nextPage_eq hP, hroom]

theorem chunkLength_of_aligned {a P : Nat} (h : a % P = 0) (L : Nat) : chunkLength a L P = min L P := by
  rw [chunkLength, h, Nat.sub_zero]

/-- Settles O46: R132's two laws with the boundary case between them, then R133's five, each by its lemma. -/
theorem chunkLaws : Obligations.ChunkLaws := by
  intro a L k _
  have hP : 0 < 2 ^ k := Nat.two_pow_pos k
  refine ⟨chunkLength_within hP a L, fun hend => chunkLength_of_le_nextPage hP hend.le, fun _ hsame => ?_,
    chunkLength_eq_zero_iff hP, fun hL => ⟨?_, chunkLength_le_min a L _⟩, chunkLength_eq_iff, fun hshort => ?_,
    fun haligned => chunkLength_of_aligned haligned L⟩
  · exact chunkLength_of_le_nextPage hP (lt_nextPage_of_samePage hP hsame).le
  · exact Nat.one_le_iff_ne_zero.2 fun h0 => Nat.one_le_iff_ne_zero.1 hL ((chunkLength_eq_zero_iff hP).1 h0)
  · rw [nextPage_of_chunkLength_lt hP hshort, Nat.mul_mod_left]

/-! ### The end of a unit's stop wait (R146, R168) and the read loop (R181) -/

/-- The block's own call is served, and the block goes on. -/
theorem exec_of_nextCall {s : State} {i : Instr} (h : s.nextCall = .next (some i)) :
    exec i s = blockAfter i (s.serve i) := by
  rw [exec_eq_primitive (isCommand_of_nextCall h), primitive_of_issues _ h]

/-- With the first answer held, the second query ends the round of a unit's stop wait (R120, R146). -/
theorem exec_qCtMaster_of_uStopWait {s : State} {busy : Bool} (hp : s.phase = .uStopWait) (hf : s.first = some busy) :
    exec .qCtMaster s = .next ((s.serve .qCtMaster).endRound (condIdle busy (s.hears .qCtMaster)) State.unitReturn
      stopLate) := by
  have hcall : s.nextCall = .next (some .qCtMaster) := by simp [State.nextCall, hp, State.due, hf]
  have hfirst : (s.serve .qCtMaster).firstFlag = busy := by simp [State.firstFlag, hf]
  have hflag : (s.serve .qCtMaster).flag = s.hears .qCtMaster := rfl
  rw [exec_of_nextCall hcall]
  simp only [blockAfter, afterCtMaster, State.serve_phase, hp, hfirst, hflag]

/-- The model's advance and loop top are what the statements call moving on. -/
theorem advance_loopTop_eq_movesOn (t : State) : t.advance.loopTop = movesOn t := rfl

/-- A read unit that has not failed moves on (R181, R183). -/
theorem unitReturn_of_read {s : State} (hok : s.result = .ok) (hread : s.isRead = true) :
    s.unitReturn = movesOn s := by
  obtain ⟨-, -, h⟩ | ⟨-, hwrite, -⟩ | ⟨hfail, -⟩ := State.unitReturn_cases s
  · exact h.trans (advance_loopTop_eq_movesOn s)
  · simp [hread] at hwrite
  · exact absurd hok hfail

/-- Settles O22: both samples are 0, so the round is satisfied, and the unit returns without a failure. -/
theorem readLoopAfterUnit : Obligations.ReadLoopAfterUnit := by
  intro s hp hf hmaster hok hread
  have hidle : condIdle false (s.hears .qCtMaster) = true := by rw [hmaster]; rfl
  rw [exec_qCtMaster_of_uStopWait hp hf, hidle]
  exact congrArg Host.Outcome.next (unitReturn_of_read (s := (s.serve .qCtMaster).countRound) hok hread)

end Sys2Proof.Proofs.PageArithmetic
end

section
/-! The unit's steps that a write makes (R141 to R146, R168, R229, R232): what a call does in each kind of phase, and the
steps in their order. -/

namespace Sys2Proof.Proofs.WriteUnit

open Sys2Proof Sys2Proof.Machine Sys2Proof.Claims Sys2Proof.Proofs.Moves Sys2Proof.Proofs.PageArithmetic

/-! ### What the block reads of a call that has just been served (R85, R120) -/

@[simp] theorem serve_flag (i : Instr) (s : State) : (s.serve i).flag = s.hears i := rfl

@[simp] theorem serve_firstFlag (i : Instr) (s : State) : (s.serve i).firstFlag = s.firstFlag := rfl

theorem firstFlag_of_some {s : State} {b : Bool} (h : s.first = some b) : s.firstFlag = b := by
  simp [State.firstFlag, h]

/-! ### The three kinds of step: an action's call, a held first answer, the end of a round -/

/-- An action leads from its phase to the wait that follows it (R32, R121). -/
theorem exec_enterWait {s : State} {i : Instr} {q : Phase} (hcall : s.nextCall = .next (some i))
    (hq : waitAfter s.phase = some q) : exec i s = .next ((s.serve i).enterWait q) := by
  rw [exec_of_nextCall hcall]
  cases hp : s.phase <;> rw [hp] at hq <;> cases hq <;> simp only [State.nextCall, hp] at hcall
  case w5Data =>
    obtain ⟨v, -, hv⟩ := withOperand_next hcall
    cases hv
    simp only [blockAfter, afterSendByte, State.serve_phase, hp]
  all_goals
    cases hcall
    simp only [blockAfter, afterStart, afterStop, afterSendAddress, afterSendByte, afterSetAck, State.serve_phase, hp]

/-- The first query of a round of two leaves its answer held (R120). -/
theorem exec_holdFirst {s : State} {i : Instr} (hcall : s.nextCall = .next (some i))
    (htwo : s.phase.twoQueries = true) (hi : i.isQuery = true) (hf : s.first = none) :
    exec i s = .next { s.serve i with first := some (s.hears i) } := by
  rw [exec_of_nextCall hcall]
  cases hp : s.phase <;> rw [hp] at htwo <;> cases htwo <;>
    simp only [State.nextCall, hp, State.due, hf, Option.isSome_none, Bool.false_eq_true, if_false] at hcall
  case u3Check =>
    split at hcall <;> cases hcall
    · cases hi
    · simp only [blockAfter, afterCtBusy, State.serve_phase, hp, State.holdFirst, serve_flag]
  all_goals
    cases hcall
    simp only [blockAfter, afterAdDone, afterCtBusy, State.serve_phase, hp, State.holdFirst, serve_flag]

/-- With a round due, the model's end of a round is the rule's (R121), where the two agree on the ways on that the round can
take. -/
theorem endRound_eq_roundEnds {s : State} {i : Instr} {holds : Bool} {sat late sat' late' : State → State}
    (hdue : s.roundDue) (hsat : holds = true → sat (s.serve i).countRound = sat' (s.serve i).countRound)
    (hlate : late (s.serve i).countRound = late' (s.serve i).countRound) :
    (s.serve i).endRound holds sat late = roundEnds s i holds sat' late' := by
  obtain ⟨hh, e⟩ | ⟨hh, hr, e⟩ | ⟨hh, hr, e⟩ := State.endRound_cases holds sat late (s.serve i)
  · rw [e, hsat hh, hh]
    rfl
  · have hlast : s.cfg.waitLimit.value = some (s.wcnt + 1) := hdue.reached_iff.1 hr
    rw [e, hlate, hh, roundEnds, if_neg (by decide), if_pos hlast]
    rfl
  · have hmore : s.cfg.waitLimit.value ≠ some (s.wcnt + 1) := fun h => by
      have hreached : reached s.cfg.waitLimit (s.wcnt + 1) = true := hdue.reached_iff.2 h
      exact Bool.false_ne_true (hr.symm.trans hreached)
    rw [e, hh, roundEnds, if_neg (by decide), if_neg hmore]
    rfl

/-- A call that ends a round does what the rule says of the round (R121). -/
theorem exec_of_endRound {s : State} {i : Instr} {holds : Bool} {sat late sat' late' : State → State}
    (hround : exec i s = .next ((s.serve i).endRound holds sat late)) (hdue : s.roundDue)
    (hsat : holds = true → sat (s.serve i).countRound = sat' (s.serve i).countRound)
    (hlate : late (s.serve i).countRound = late' (s.serve i).countRound) :
    exec i s = .next (roundEnds s i holds sat' late') := by
  rw [hround, endRound_eq_roundEnds hdue hsat hlate]

/-- A wait of a unit that asks one flag and leads to one phase: the rounds of R121, with `Timeout` raised at the bound. -/
theorem exec_flagWait {s : State} {i : Instr} {q : Phase} (hcall : s.nextCall = .next (some i))
    (hunit : s.phase ∈ unitWaits) (hq : satisfiedTo s.phase = some q) (hdue : s.roundDue) :
    exec i s = .next (roundEnds s i (s.hears i) (fun t => { t with phase := q }) (fails .timeout)) := by
  have hround : exec i s = .next ((s.serve i).endRound (s.hears i) (State.goto q) (State.raise .timeout)) := by
    rw [exec_of_nextCall hcall]
    cases hp : s.phase <;> rw [hp] at hq hunit <;> cases hq <;> simp only [State.nextCall, hp] at hcall
    case pStartWait => exact absurd hunit (by decide)
    all_goals
      cases hcall
      simp only [blockAfter, afterStSent, afterAdDone, afterTxEmpty, afterRxFull, State.serve_phase, hp, serve_flag]
  exact exec_of_endRound hround hdue (fun _ => rfl) rfl

/-! ### Steps 1 to 3 (R141 to R143, R229) -/

/-- Settles O17: an action and the wait on one flag. -/
theorem unitStepOne : Obligations.UnitStepOne := by
  intro s
  refine ⟨fun hp => ?_, fun hp hdue => ?_⟩
  · exact exec_enterWait (q := .u1Wait) (by simp only [State.nextCall, hp]) (by rw [hp]; rfl)
  · exact exec_flagWait (by simp only [State.nextCall, hp]) (by rw [hp]; decide) (by rw [hp]; rfl) hdue

/-- With the first answer held, the second query ends the round of a unit's address wait (R120, R142). -/
theorem exec_qAdNack_of_u2Wait {s : State} {adDone : Bool} (hp : s.phase = .u2Wait) (hf : s.first = some adDone) :
    exec .qAdNack s = .next ((s.serve .qAdNack).endRound (adDone || s.hears .qAdNack) unitAddressed
      (State.raise .timeout)) := by
  have hcall : s.nextCall = .next (some .qAdNack) := by simp [State.nextCall, hp, State.due, hf]
  rw [exec_of_nextCall hcall]
  simp only [blockAfter, afterAdNack, State.serve_phase, hp, serve_firstFlag, firstFlag_of_some hf, serve_flag,
    condAddrAny]

/-- With the first answer held, the second query of the state test decides it (R120, R143). -/
theorem exec_qCtMaster_of_u3Check {s : State} {busy : Bool} (hp : s.phase = .u3Check) (hn : s.nacked = false)
    (hf : s.first = some busy) :
    exec .qCtMaster s = .next (if busy = true ∧ s.hears .qCtMaster = true then (s.serve .qCtMaster).goto .u4Hi
      else (s.serve .qCtMaster).raise .busFault) := by
  have hcall : s.nextCall = .next (some .qCtMaster) := by simp [State.nextCall, hp, hn, State.due, hf]
  rw [exec_of_nextCall hcall]
  simp only [blockAfter, afterCtMaster, State.serve_phase, hp, serve_firstFlag, firstFlag_of_some hf, serve_flag,
    condActive, Bool.and_eq_true]

/-- The answered address: NACKED is the sample heard, and step 3 raises or begins (R142, R143). -/
theorem unitAddressed_eq {t : State} (hf : t.first = none) :
    unitAddressed t = if t.flag then fails .notAcknowledged { t with nacked := true }
      else { t with nacked := false, phase := .u3Check } := by
  obtain ⟨hflag, e⟩ | ⟨hflag, e⟩ := unitAddressed_cases t
  · rw [e, if_pos hflag, State.takeNacked, hflag]
    rfl
  · rw [e, if_neg (by simp [hflag]), State.takeNacked, hflag, State.goto, hf]

/-- Settles O18: an action, a round of two queries that waits, and one that decides at once. -/
theorem unitStepsTwoAndThree : Obligations.UnitStepsTwoAndThree := by
  intro s
  refine ⟨fun hp => ?_, fun hp hf => ?_, fun adDone hp hf hdue => ?_, fun hp hn hf => ?_, fun busy hp hn hf => ?_⟩
  · exact exec_enterWait (q := .u2Wait) (by simp only [State.nextCall, hp]) (by rw [hp]; rfl)
  · exact exec_holdFirst (by simp [State.nextCall, hp, State.due, hf]) (by rw [hp]; rfl) rfl hf
  · exact exec_of_endRound (exec_qAdNack_of_u2Wait hp hf) hdue (fun _ => unitAddressed_eq rfl) rfl
  · exact exec_holdFirst (by simp [State.nextCall, hp, hn, State.due, hf]) (by rw [hp]; rfl) rfl hf
  · exact exec_qCtMaster_of_u3Check hp hn hf

/-! ### Step 4 (R144, R161) -/

theorem exec_qTxEmpty_of_u4LoWait {s : State} (hp : s.phase = .u4LoWait) :
    exec .qTxEmpty s = .next ((s.serve .qTxEmpty).endRound (s.hears .qTxEmpty) addressSent (State.raise .timeout)) := by
  rw [exec_of_nextCall (by simp only [State.nextCall, hp])]
  simp only [blockAfter, afterTxEmpty, State.serve_phase, hp, serve_flag]

/-- Settles O19: each byte of ADDR is an action and a wait; the second wait leads to the data phase of the command. -/
theorem unitStepFour : Obligations.UnitStepFour := by
  intro s
  refine ⟨fun hp => ?_, fun hp hdue => ?_, fun hp => ?_, fun hp hdue => ?_⟩
  · exact exec_enterWait (q := .u4HiWait) (by simp only [State.nextCall, hp, State.addrHi]) (by rw [hp]; rfl)
  · exact exec_flagWait (by simp only [State.nextCall, hp]) (by rw [hp]; decide) (by rw [hp]; rfl) hdue
  · exact exec_enterWait (q := .u4LoWait) (by simp only [State.nextCall, hp, State.addrLo]) (by rw [hp]; rfl)
  · exact exec_of_endRound (exec_qTxEmpty_of_u4LoWait hp) hdue (fun _ => rfl) rfl

/-! ### Step 5 (R145) -/

/-- The block's call in W5_DATA sends the byte of BUF at the cursor (R55, R145). -/
theorem nextCall_of_w5Data {s : State} {v : Byte} (hp : s.phase = .w5Data) (hi : s.bufIndex < s.cfg.bufSize)
    (hv : Memory.read bufBlank s.buf s.bufIndex = some v) : s.nextCall = .next (some (.busSendByte v)) := by
  simp only [State.nextCall, hp, HostInterface.bufRead_of_listed hi hv, withOperand]

theorem exec_qTxEmpty_of_w5Wait {s : State} (hp : s.phase = .w5Wait) :
    exec .qTxEmpty s = .next ((s.serve .qTxEmpty).endRound (s.hears .qTxEmpty) dataSent (State.raise .timeout)) := by
  rw [exec_of_nextCall (by simp only [State.nextCall, hp])]
  simp only [blockAfter, afterTxEmpty, State.serve_phase, hp, serve_flag]

/-- A data byte that is out counts IDX on, and IDX decides the phase alone (R145). -/
theorem dataSent_eq {t : State} (hf : t.first = none) :
    dataSent t = { t with idx := t.idx + 1, phase := if t.idx + 1 < t.chunk then .w5Data else .uStop } := by
  by_cases h : t.idx + 1 < t.chunk <;> simp only [dataSent, State.goto, hf, h, if_true, if_false]

/-- Settles O20: the byte read is the one sent, and the wait after it counts it. -/
theorem unitStepFive : Obligations.UnitStepFive := by
  intro s
  refine ⟨fun v hp hi hv => ?_, fun hp hdue => ?_⟩
  · exact exec_enterWait (q := .w5Wait) (nextCall_of_w5Data hp hi hv) (by rw [hp]; rfl)
  · exact exec_of_endRound (exec_qTxEmpty_of_w5Wait hp) hdue (fun _ => dataSent_eq rfl) rfl

/-! ### The stop step (R146, R168, R184, R194, R232) -/

/-- A unit that has failed ends the command with its failure (R184, R194). -/
theorem unitReturn_of_failed {t : State} (h : t.result ≠ .ok) : t.unitReturn = completes t.result t :=
  if_neg h

/-- A late stop changes no failure recorded before (R232). -/
theorem stopLate_of_failed {t : State} (h : t.result ≠ .ok) : stopLate t = completes t.result t := by
  rw [stopLate, firstFailure, if_neg h]
  exact unitReturn_of_failed h

/-- A late stop is the first failure of a unit that had none (R146, R232). -/
theorem stopLate_of_ok {t : State} (h : t.result = .ok) : stopLate t = completes .timeout t := by
  rw [stopLate, firstFailure, if_pos h]
  rfl

/-- Settles O21: an action and a round of two queries, whose end is a failed unit's return or a late stop. -/
theorem unitStopStepAndFailure : Obligations.UnitStopStepAndFailure := by
  intro s
  refine ⟨fun hp => ?_, fun hp hf => ?_, fun busy hp hf hdue hfail => ?_, fun busy hp hf hdue hok hbus => ?_⟩
  · exact exec_enterWait (q := .uStopWait) (by simp only [State.nextCall, hp]) (by rw [hp]; rfl)
  · exact exec_holdFirst (by simp [State.nextCall, hp, State.due, hf]) (by rw [hp]; rfl) rfl hf
  · exact exec_of_endRound (exec_qCtMaster_of_uStopWait hp hf) hdue (fun _ => unitReturn_of_failed hfail)
      (stopLate_of_failed hfail)
  · have hnotIdle : condIdle busy (s.hears .qCtMaster) = false := by
      obtain h | h := hbus <;> simp [condIdle, h]
    have hround := exec_qCtMaster_of_uStopWait hp hf
    rw [hnotIdle] at hround
    exact exec_of_endRound hround hdue nofun (stopLate_of_ok hok)

end Sys2Proof.Proofs.WriteUnit
end

section
/-! The read unit's steps 5 to 7 (R162 to R167): they are steps of the kinds a write unit makes, but for the state test that
begins the data phase and the byte that is stored. -/

namespace Sys2Proof.Proofs.ReadUnit

open Sys2Proof Sys2Proof.Machine Sys2Proof.Claims Sys2Proof.Proofs.Moves Sys2Proof.Proofs.PageArithmetic
  Sys2Proof.Proofs.WriteUnit

/-! ### Steps 5 and 6 (R162, R163) -/

/-- Settles O24: the repeated start is an action and the wait on one flag. -/
theorem readStepFive : Obligations.ReadStepFive := by
  intro s
  refine ⟨fun hp => ?_, fun hp hdue => ?_⟩
  · exact exec_enterWait (q := .r5Wait) (by simp only [State.nextCall, hp]) (by rw [hp]; rfl)
  · exact exec_flagWait (by simp only [State.nextCall, hp]) (by rw [hp]; decide) (by rw [hp]; rfl) hdue

/-- Settles O25: the address with Read intent is an action, and its wait asks one flag, not two. -/
theorem readStepSix : Obligations.ReadStepSix := by
  intro s
  refine ⟨fun hp => ?_, fun hp hdue => ?_⟩
  · exact exec_enterWait (q := .r6Wait) (by simp only [State.nextCall, hp]) (by rw [hp]; rfl)
  · exact exec_flagWait (by simp only [State.nextCall, hp]) (by rw [hp]; decide) (by rw [hp]; rfl) hdue

/-! ### Step 7: the state test and the acknowledge control (R164 to R166) -/

/-- With the first answer held, the second query of the state test decides it (R120, R164). -/
theorem exec_qCtMaster_of_r7Check {s : State} {busy : Bool} (hp : s.phase = .r7Check) (hf : s.first = some busy) :
    exec .qCtMaster s = .next (if busy = true ∧ s.hears .qCtMaster = true then startReading (s.serve .qCtMaster)
      else (s.serve .qCtMaster).raise .busFault) := by
  have hcall : s.nextCall = .next (some .qCtMaster) := by simp [State.nextCall, hp, State.due, hf]
  rw [exec_of_nextCall hcall]
  simp only [blockAfter, afterCtMaster, State.serve_phase, hp, serve_firstFlag, firstFlag_of_some hf, serve_flag,
    condActive, Bool.and_eq_true]

/-- Settles O26: a round of two queries that decides at once, and two actions. -/
theorem readStepSevenBegins : Obligations.ReadStepSevenBegins := by
  intro s
  refine ⟨fun hp hf => ?_, fun busy hp hf => ?_, fun hp => ?_, fun hp => ?_⟩
  · exact exec_holdFirst (by simp [State.nextCall, hp, State.due, hf]) (by rw [hp]; rfl) rfl hf
  · exact exec_qCtMaster_of_r7Check hp hf
  · exact exec_enterWait (q := .r7Wait) (by simp only [State.nextCall, hp]) (by rw [hp]; rfl)
  · exact exec_enterWait (q := .r7Wait) (by simp only [State.nextCall, hp]) (by rw [hp]; rfl)

/-! ### Step 7: the bytes (R167) -/

/-- A byte received inside the buffer is stored at the cursor, and the block goes on from there (R55, R167). -/
theorem exec_busRecvByte_of_r7Recv {s : State} (hp : s.phase = .r7Recv) (hi : s.bufIndex < s.cfg.bufSize) :
    exec .busRecvByte s = .next (afterStored
      { s.serve .busRecvByte with buf := Memory.write bufBlank s.buf s.bufIndex (s.reply .busRecvByte) }) := by
  have hcall : s.nextCall = .next (some .busRecvByte) := by simp only [State.nextCall, hp]
  rw [exec_of_nextCall hcall]
  exact congrArg (withOperand afterStored) (if_pos hi)

/-- A byte that is stored counts IDX on, and IDX decides between the stop, the last byte and another byte (R167). -/
theorem afterStored_eq (t : State) :
    afterStored t =
      if t.idx + 1 = t.chunk then { t with idx := t.idx + 1, first := none, phase := .uStop }
      else if t.idx + 1 = t.chunk - 1 then { t with idx := t.idx + 1, first := none, phase := .r7AckOff }
      else { t with idx := t.idx + 1, first := none, phase := .r7Wait, wcnt := 0 } := rfl

/-- Settles O27: the wait on one flag, and the byte that is stored and counted. -/
theorem readStepSevenBytes : Obligations.ReadStepSevenBytes := by
  intro s
  refine ⟨fun hp hdue => ?_, fun hp hi => ?_⟩
  · exact exec_flagWait (by simp only [State.nextCall, hp]) (by rw [hp]; decide) (by rw [hp]; rfl) hdue
  · exact (exec_busRecvByte_of_r7Recv hp hi).trans (congrArg Host.Outcome.next (afterStored_eq _))

end Sys2Proof.Proofs.ReadUnit
end

section
/-! A block command of length 0: the block loop finds REM = 0 at once and the command completes with no call made (R185,
R198, D33). -/

namespace Sys2Proof.Proofs.ZeroLength

open Sys2Proof Sys2Proof.Machine Sys2Proof.Claims Sys2Proof.Proofs.Moves

/-- With no byte to move, acceptance is completion with `OK` of the command just latched (R36, R38, R181, R191). -/
theorem accept_zero_of_idle {s : State} (op : BitVec 2) (addr : Half) (hb : s.busy = false) :
    s.accept op addr 0 = completes .ok { s with op := op, addr := addr, cur := 0, rem := 0 } := by
  obtain ⟨hb', -⟩ | ⟨-, -, h⟩ | ⟨-, hl, -⟩ := accept_cases op addr 0 s
  · simp [hb] at hb'
  · exact h
  · exact absurd rfl hl

/-- A command that has completed with `OK` shows DONE alone in STATUS (R35, R220). -/
theorem status_completes_ok (t : State) : (completes .ok t).status = 0b0010 := by
  change Result.ok.code ++ BitVec.ofBool true ++ BitVec.ofBool false = 0b0010
  decide

/-- Settles O14: both commands are acceptance with length 0, which completes at once and writes neither BUF nor the
environment nor PW. -/
theorem zeroLengthCompletesAtAcceptance : Obligations.ZeroLengthCompletesAtAcceptance := by
  intro s addr hb
  exact ⟨_, _, congrArg Host.Outcome.next (accept_zero_of_idle 0b11 addr hb),
    congrArg Host.Outcome.next (accept_zero_of_idle 0b01 addr hb),
    status_completes_ok _, rfl, rfl, rfl, rfl, status_completes_ok _, rfl, rfl, rfl, rfl⟩

end Sys2Proof.Proofs.ZeroLength
end

section
/-! The poll (R191, R195, R200 to R205): it follows every successful write unit, its attempts are steps of the kinds a
unit makes, and it alone ends a write command with `OK`. -/

namespace Sys2Proof.Proofs.Poll

open Sys2Proof Sys2Proof.Machine Sys2Proof.Claims Sys2Proof.Proofs.Moves Sys2Proof.Proofs.PageArithmetic
  Sys2Proof.Proofs.WriteUnit

/-! ### The poll begins (R191, R195, R200) -/

/-- A write unit that has not failed is followed by the poll's first attempt. -/
theorem unitReturn_of_write {s : State} (hok : s.result = .ok) (hwrite : s.isRead = false) :
    s.unitReturn = { s with pcnt := 1, phase := .pStart, first := none } := by
  obtain ⟨-, hread, -⟩ | ⟨-, -, h⟩ | ⟨hfail, -⟩ := State.unitReturn_cases s
  · simp [hwrite] at hread
  · exact h.trans (State.pollStart_eq s)
  · exact absurd hok hfail

/-- Settles O23: both samples are 0, so the round is satisfied, and the unit returns without a failure. -/
theorem writeUnitIsPolled : Obligations.WriteUnitIsPolled := by
  intro s hp hf hmaster hok hwrite
  have hidle : condIdle false (s.hears .qCtMaster) = true := by rw [hmaster]; rfl
  rw [exec_qCtMaster_of_uStopWait hp hf, hidle]
  exact congrArg Host.Outcome.next (unitReturn_of_write (s := (s.serve .qCtMaster).countRound) hok hwrite)

/-! ### An attempt's start and address (R201, R202) -/

theorem exec_qStSent_of_pStartWait {s : State} (hp : s.phase = .pStartWait) :
    exec .qStSent s = .next ((s.serve .qStSent).endRound (s.hears .qStSent) (State.goto .pAddr) State.pollLate) := by
  rw [exec_of_nextCall (by simp only [State.nextCall, hp])]
  simp only [blockAfter, afterStSent, State.serve_phase, hp, serve_flag]

/-- With the first answer held, the second query ends the round of an attempt's address wait (R120, R202). -/
theorem exec_qAdNack_of_pAddrWait {s : State} {adDone : Bool} (hp : s.phase = .pAddrWait)
    (hf : s.first = some adDone) :
    exec .qAdNack s = .next ((s.serve .qAdNack).endRound (adDone || s.hears .qAdNack)
      (fun t => t.takeNacked.goto .pStop) State.pollLate) := by
  have hcall : s.nextCall = .next (some .qAdNack) := by simp [State.nextCall, hp, State.due, hf]
  rw [exec_of_nextCall hcall]
  simp only [blockAfter, afterAdNack, State.serve_phase, hp, serve_firstFlag, firstFlag_of_some hf, serve_flag,
    condAddrAny]

/-- Settles O28: an action and the wait on one flag, an action and a round of two queries; both waits are late alike. -/
theorem pollStartAndAddress : Obligations.PollStartAndAddress := by
  intro s
  refine ⟨fun hp => ?_, fun hp hdue => ?_, fun hp => ?_, fun hp hf => ?_, fun adDone hp hf hdue => ?_⟩
  · exact exec_enterWait (q := .pStartWait) (by simp only [State.nextCall, hp]) (by rw [hp]; rfl)
  · exact exec_of_endRound (exec_qStSent_of_pStartWait hp) hdue (fun _ => rfl) rfl
  · exact exec_enterWait (q := .pAddrWait) (by simp only [State.nextCall, hp]) (by rw [hp]; rfl)
  · exact exec_holdFirst (by simp [State.nextCall, hp, State.due, hf]) (by rw [hp]; rfl) rfl hf
  · exact exec_of_endRound (exec_qAdNack_of_pAddrWait hp hf) hdue (fun _ => rfl) rfl

/-! ### An attempt's stop and the decision (R193, R203 to R205) -/

/-- With the first answer held, the second query ends the round of an attempt's stop wait (R120, R203). -/
theorem exec_qCtMaster_of_pStopWait {s : State} {busy : Bool} (hp : s.phase = .pStopWait) (hf : s.first = some busy) :
    exec .qCtMaster s = .next ((s.serve .qCtMaster).endRound (!busy && !s.hears .qCtMaster) State.pollDecide
      (State.complete .timeout)) := by
  have hcall : s.nextCall = .next (some .qCtMaster) := by simp [State.nextCall, hp, State.due, hf]
  rw [exec_of_nextCall hcall]
  simp only [blockAfter, afterCtMaster, State.serve_phase, hp, serve_firstFlag, firstFlag_of_some hf, serve_flag,
    condIdle]

/-- An attempt that has not failed is decided by NACKED (R204). -/
theorem pollDecide_of_ok {t : State} (hok : t.result = .ok) (hf : t.first = none) :
    t.pollDecide = if t.nacked = true then { t with phase := .pClear } else movesOn t := by
  obtain ⟨-, hn, e⟩ | ⟨-, hn, e⟩ | ⟨hfail, -⟩ := State.pollDecide_cases t
  · rw [e, if_pos hn, State.goto, hf]
  · rw [e, if_neg (by simp [hn]), advance_loopTop_eq_movesOn]
  · exact absurd hok hfail

/-- An attempt that has failed ends the command with `Timeout` (R205). -/
theorem pollDecide_of_failed {t : State} (hfail : t.result ≠ .ok) : t.pollDecide = completes .timeout t :=
  if_neg hfail

/-- Settles O29: an action and a round of two queries, whose end is the decision or completion with `Timeout`. -/
theorem pollStopAndDecision : Obligations.PollStopAndDecision := by
  intro s
  refine ⟨fun hp => ?_, fun hp hf => ?_, fun busy hp hf hdue hok => ?_⟩
  · exact exec_enterWait (q := .pStopWait) (by simp only [State.nextCall, hp]) (by rw [hp]; rfl)
  · exact exec_holdFirst (by simp [State.nextCall, hp, State.due, hf]) (by rw [hp]; rfl) rfl hf
  · exact exec_of_endRound (exec_qCtMaster_of_pStopWait hp hf) hdue (fun _ => pollDecide_of_ok hok rfl) rfl

/-- Settles O31: satisfied or late, the stop wait of a failed attempt completes the command with `Timeout`. -/
theorem pollTimeoutInsideAttempt : Obligations.PollTimeoutInsideAttempt := by
  intro s busy hp hf hdue hfail
  exact exec_of_endRound (exec_qCtMaster_of_pStopWait hp hf) hdue (fun _ => pollDecide_of_failed hfail) rfl

/-! ### After a refused attempt (R200, R204) -/

/-- With PCNT not past the bound, the top of the poll loop ends the command when PCNT has come to it, and counts on
otherwise (R33, R200). -/
theorem pollTop_eq {s : State} (hcount : ∀ n, s.cfg.pollLimit.value = some n → s.pcnt ≤ n) :
    s.pollTop = if s.cfg.pollLimit.value = some s.pcnt then completes .timeout s
      else { s with phase := .pStart, first := none, pcnt := s.pcnt + 1 } := by
  obtain ⟨hr, e⟩ | ⟨hr, e⟩ := State.pollTop_cases s
  · obtain ⟨n, hn, hle⟩ := reached_iff.1 hr
    have hlast : s.cfg.pollLimit.value = some s.pcnt := by rw [hn, Nat.le_antisymm (hcount n hn) hle]
    rw [e, if_pos hlast]
    rfl
  · rw [e, if_neg fun hlast => lt_irrefl _ (not_reached_iff.1 hr _ hlast)]

theorem exec_busClearNack_of_pClear {s : State} (hp : s.phase = .pClear) :
    exec .busClearNack s = .next (s.serve .busClearNack).pollTop := by
  rw [exec_of_nextCall (by simp only [State.nextCall, hp])]
  simp only [blockAfter, afterClearNack, State.serve_phase, hp]

/-- `bus_clear_nack` clears AD_NACK in either kind of environment (R75, R108). -/
theorem serve_busClearNack_adNack (s : State) : (s.serve .busClearNack).env.adNack = false := by
  rw [State.serve_env, State.envAfter]
  cases s.env.kind <;> rfl

/-- Settles O30: the clear goes back to the top of the poll loop. -/
theorem pollRetriesUpToLimit : Obligations.PollRetriesUpToLimit := by
  intro s hp hcount
  refine ⟨?_, serve_busClearNack_adNack s⟩
  rw [exec_busClearNack_of_pClear hp]
  exact congrArg Host.Outcome.next (pollTop_eq (s := s.serve .busClearNack) hcount)

/-! ### How a write command ends with `OK` (R195) -/

/-- The command has completed with `OK` (R38, R220). -/
structure EndedOk (t : State) : Prop where
  busy : t.busy = false
  result : t.result = .ok

theorem not_endedOk_of_busy {t : State} (h : t.busy = true) : ¬ EndedOk t := fun hend => by
  simp [hend.busy] at h

theorem not_endedOk_complete {s : State} {r : Result} (h : r ≠ .ok) : ¬ EndedOk (s.complete r) :=
  fun hend => h hend.result

theorem not_endedOk_pollTop {s : State} (hb : s.busy = true) : ¬ EndedOk s.pollTop := by
  obtain ⟨-, e⟩ | ⟨-, e⟩ := State.pollTop_cases s <;> rw [e]
  · exact not_endedOk_complete nofun
  · exact not_endedOk_of_busy hb

/-- A write unit returns its failure, or the poll follows it (R191, R194). -/
theorem not_endedOk_unitReturn {s : State} (hb : s.busy = true) (hwrite : s.isRead = false) :
    ¬ EndedOk s.unitReturn := by
  by_cases hok : s.result = .ok
  · rw [unitReturn_of_write hok hwrite]
    exact not_endedOk_of_busy hb
  · rw [unitReturn_of_failed hok]
    exact not_endedOk_complete hok

/-- The decision ends the command with `OK` after an acknowledged attempt that leaves nothing to write (R204, R191). -/
theorem acknowledged_of_endedOk_pollDecide {s : State} (hb : s.busy = true) (hend : EndedOk s.pollDecide) :
    s.nacked = false ∧ s.pollDecide.rem = 0 := by
  obtain ⟨-, -, e⟩ | ⟨-, hn, e⟩ | ⟨-, e⟩ := State.pollDecide_cases s <;> rw [e] at hend ⊢
  · exact absurd hend (not_endedOk_of_busy hb)
  · obtain ⟨hrem, e'⟩ | ⟨-, e'⟩ := State.loopTop_cases s.advance <;> rw [e'] at hend ⊢
    · exact ⟨hn, hrem⟩
    · exact absurd hend (not_endedOk_of_busy hb)
  · exact absurd hend (not_endedOk_complete nofun)

/-- Of the moves from the three phases in which a command can end, only the decision of a poll attempt ends a write with
`OK`. -/
theorem acknowledged_of_blockMove {u t : State} (hm : BlockMove u t) (hb : u.busy = true) (hwrite : u.isRead = false)
    (hp : u.phase = .uStopWait ∨ u.phase = .pStopWait ∨ u.phase = .pClear) (hend : EndedOk t) :
    u.phase = .pStopWait ∧ u.nacked = false ∧ t.rem = 0 := by
  cases hm with
  | enterWait | holdFirst | again | satisfied | unitLate | pollLate | refusedCheck | notActive | active
  | pollAddressed => exact absurd hend (not_endedOk_of_busy hb)
  | unitAddressed h | startReading h | addressSent h | dataSent h | received h => simp [h] at hp
  | unitReturn => exact absurd hend (not_endedOk_unitReturn hb hwrite)
  | stopLate =>
    exact absurd hend (not_endedOk_unitReturn
      (s := { u.countRound with result := firstFailure u.result .timeout }) hb hwrite)
  | pollDecide h => exact ⟨h, acknowledged_of_endedOk_pollDecide (s := u.countRound) hb hend⟩
  | pollStopLate => exact absurd hend (not_endedOk_complete nofun)
  | pollTop => exact absurd hend (not_endedOk_pollTop hb)

/-- While BUSY = 1, a step other than reset ends no command unless it is the block's own call with the move after it. -/
theorem own_of_ended {s t : State} (hreset : ∀ rest, s.host ≠ .reset :: rest) (hstep : step s = .next t)
    (hb : s.busy = true) (hbt : t.busy = false) :
    ∃ hs i, BlockMove (State.serve { s with host := hs } i) t := by
  have busy_kept {P : Prop} (h : t.busy = s.busy) : P := by simp [hb, hbt] at h
  cases turn_of_step hstep with
  | @own hs i _ _ hm => exact ⟨hs, i, hm⟩
  | outside | hostWrote | quiet => exact busy_kept rfl
  | command hs op addr len =>
    exact busy_kept (by rw [HostInterface.accept_of_busy (s := { s with host := hs }) op addr len hb])
  | @reset rest hh => exact absurd hh (hreset rest)

/-- Settles O54: the step is the block's own move, from one of the three phases in which a command can end. -/
theorem writeOkMeansAcknowledgedPoll : Obligations.WriteOkMeansAcknowledgedPoll := by
  intro s t _ hreset hstep hb hbt hwrite hok
  obtain ⟨hp, -⟩ := PhaseOrder.commandEndsOnlyAfterStop s t hreset hstep hb hbt
  obtain ⟨hs, i, hm⟩ := own_of_ended hreset hstep hb hbt
  exact acknowledged_of_blockMove (u := State.serve { s with host := hs } i) hm hb hwrite hp ⟨hbt, hok⟩

end Sys2Proof.Proofs.Poll
end

section
/-! A command that keeps the contract never stops the machine, whatever the bounds (R38, R39, R227, R255, R263): the block
has a next call, what follows the call has a next state, and invariant, contract and the absence of host moves are kept. -/

namespace Sys2Proof.Proofs.ContractRun

open Sys2Proof Sys2Proof.Machine Sys2Proof.Claims Sys2Proof.Proofs.Moves Sys2Proof.Proofs.ControlInvariant
  Sys2Proof.Proofs.BusFrames Sys2Proof.Proofs.Termination

/-- In `IDLE` the block makes no call (R26, R252). -/
theorem blockTurn_of_idle {s : State} (hp : s.phase = .idle) : blockTurn s = .next s := by
  simp only [blockTurn, State.nextRequest, State.nextCall, hp, withOperand, Option.bind_none]

/-- The byte that `R7_RECV` takes has its place in BUF (R263). -/
theorem bufIndex_of_receive {s : State} (h : s.Control) (hc : s.Contract)
    (hcall : s.nextCall = .next (some .busRecvByte)) : s.bufIndex < s.cfg.bufSize := by
  have hp : s.phase = .r7Recv := phase_of_receive hcall
  have hr : Running s := control_running h (by rw [hp]; nofun)
  obtain ⟨-, hinside⟩ := bufIndex_in_window hr (h.index (by rw [hp]; rfl))
  exact hinside.trans_le (hc.fits hr.busy)

/-- Outside `IDLE`, within the contract, the block makes a call and goes on after it. -/
theorem ownCall_exists {s : State} (h : s.Control) (hc : s.Contract) (hn : s.phase ≠ .idle) :
    ∃ i t, s.nextCall = .next (some i) ∧ exec i s = .next t := by
  obtain ⟨i, hcall⟩ := nextCall_exists h hc hn
  obtain ⟨t, hafter⟩ : ∃ t, blockAfter i (s.serve i) = .next t :=
    blockAfter_exists fun hi => bufIndex_of_receive (s := s) h hc (hi ▸ hcall)
  refine ⟨i, t, hcall, ?_⟩
  rw [exec_eq_primitive (isCommand_of_nextCall hcall), primitive_of_issues _ hcall, hafter]

/-- The block's own call, with the move after it, keeps the contract; the contract does not speak of the environment. -/
theorem ownCall_contract {s t : State} {i : Instr} (h : s.Control) (hc : s.Contract)
    (hcall : s.nextCall = .next (some i)) (he : exec i s = .next t) : t.Contract :=
  have served : (s.serve i).Contract := ⟨hc.fits, hc.filled⟩
  blockMove_contract (control_serve_own h hcall) served (blockMove_of_exec hcall he)

/-- Settles O59: in `IDLE` the step leaves the state as it is; elsewhere it is the block's own call. -/
theorem contractKeepsRunning : Obligations.ContractKeepsRunning := by
  intro s h hc hh
  by_cases hp : s.phase = .idle
  · have hstep : step s = .next s := by rw [Scope.step_of_host_nil hh, blockTurn_of_idle hp]
    exact ⟨s, hstep, h, hc, hh⟩
  · obtain ⟨i, t, hcall, he⟩ := ownCall_exists h hc hp
    have hstep : step s = .next t := by rw [Scope.step_of_host_nil hh, blockTurn_of_call hcall, he]
    obtain ⟨-, -, hhost, -⟩ := exec_sameFrame (isCommand_of_nextCall hcall) he
    exact ⟨t, hstep, controlIsInvariant s t h hstep, ownCall_contract h hc hcall he, hhost.trans hh⟩

end Sys2Proof.Proofs.ContractRun
end

section
/-! The first failure of a command wins (R228, R230, R234): a recorded failure stands through every move of the stop step
and of a failed attempt's stop, and the command ends with it. -/

namespace Sys2Proof.Proofs.FirstFailure

open Sys2Proof Sys2Proof.Machine Sys2Proof.Claims Sys2Proof.Proofs.Moves Sys2Proof.Proofs.ControlInvariant

/-- A recorded failure is not replaced (R230). -/
theorem firstFailure_of_failed {r e : Result} (h : r ≠ .ok) : firstFailure r e = r := if_neg h

/-- A unit that has failed returns its failure to the block loop, which ends the command with it (R184, R194, R234). -/
theorem unitReturn_result_of_failed {s : State} (h : s.result ≠ .ok) : s.unitReturn.result = s.result := by
  rw [WriteUnit.unitReturn_of_failed h]
  rfl

/-- A time-out of the stop wait does not replace the unit's failure (R146, R232). -/
theorem stopLate_result_of_failed {s : State} (h : s.result ≠ .ok) : (stopLate s).result = s.result := by
  rw [WriteUnit.stopLate_of_failed h]
  rfl

/-- No move of the block replaces a recorded failure. Outside the stop steps there is none (R231), and a poll, which ends
with `Timeout`, has recorded no other (R200, R205). -/
theorem blockMove_result_of_failed {u t : State} (hu : u.Control) (hfail : u.result ≠ .ok) (hm : BlockMove u t) :
    t.result = u.result := by
  have hbusy : u.busy = true := (control_running hu (blockMove_ne_idle hm)).busy
  have notIn {p : Phase} {P : Prop} (hp : u.phase = p) (hs : p.isStop = false) : P :=
    absurd (hu.okSoFar hbusy (hp ▸ hs)) hfail
  have timeout {p : Phase} (hp : u.phase = p) (hpoll : p.inPoll = true) : .timeout = u.result :=
    ((hu.pollResult (hp ▸ hpoll)).resolve_left hfail).symm
  cases hm with
  | enterWait | holdFirst | again | satisfied | pollAddressed | active => rfl
  | unitLate | refusedCheck | notActive => exact firstFailure_of_failed hfail
  | unitAddressed h | startReading h | addressSent h | dataSent h | received h | pollTop h => exact notIn h rfl
  | pollLate h => obtain h | h := h <;> exact notIn h rfl
  | unitReturn => exact unitReturn_result_of_failed (s := u.countRound) hfail
  | stopLate => exact stopLate_result_of_failed (s := u.countRound) hfail
  | pollDecide h =>
    rw [Poll.pollDecide_of_failed (t := u.countRound) hfail]
    exact timeout h rfl
  | pollStopLate h => exact timeout h rfl

/-- Settles O55, by what the step is: the block's moves keep the failure, a write of CMD is ignored while BUSY = 1 (R37),
and no one else writes RESULT but the reset input. -/
theorem firstFailureWins : Obligations.FirstFailureWins := by
  intro s t h hreset hb hfail hstep
  cases turn_of_step hstep with
  | @own hs i _ hc hm =>
    have hhost : ({ s with host := hs } : State).Control := { h with }
    have hserved := Termination.control_serve_own hhost hc
    exact blockMove_result_of_failed (u := State.serve { s with host := hs } i) hserved hfail hm
  | outside | hostWrote | quiet => rfl
  | command hs op addr len => rw [HostInterface.accept_of_busy (s := { s with host := hs }) op addr len hb]
  | @reset rest hh => exact absurd hh (hreset rest)

end Sys2Proof.Proofs.FirstFailure
end

section
/-! Reset and what never changes (70_reset_and_hazards section 1): the state after reset, the reset input, the idle block,
and the parameters. -/

namespace Sys2Proof.Proofs.Reset

open Sys2Proof Sys2Proof.Machine Sys2Proof.Claims Sys2Proof.Proofs.Moves Sys2Proof.Proofs.Memories
  Sys2Proof.Proofs.ControlInvariant

/-! ### The parameters (R7, R254) -/

/-- Settles O51, by what the step is: the environment's call, the block's move and acceptance leave the parameters, and
reset takes them from the state it replaces. -/
theorem parametersNeverChange : Obligations.ParametersNeverChange := by
  intro s t hstep
  cases turn_of_step hstep with
  | @own hs i _ _ hm =>
    calc t.cfg = (State.serve { s with host := hs } i).cfg := blockMove_cfg hm
      _ = s.cfg := State.serve_cfg i _
  | command hs op addr len => exact (accept_sameStore op addr len { s with host := hs }).cfg
  | outside | hostWrote | reset | quiet => rfl

/-! ### The idle block (R252) -/

/-- Settles O8: with no host move the step is the block's turn, and in `IDLE` it makes no call. -/
theorem idleBlockDoesNothing : Obligations.IdleBlockDoesNothing := by
  intro s hh hp
  rw [Scope.step_of_host_nil hh, ContractRun.blockTurn_of_idle hp]

/-! ### The reset input (R250, R251) -/

theorem step_of_reset {s : State} {rest : List HostMove} (h : s.host = .reset :: rest) :
    step s = .next (State.applyReset { s with host := rest }) := by
  simp only [step, turn, h]

/-- BUSY = 0, DONE = 0 and the code of `OK` (R35, R250). -/
theorem status_applyReset (s : State) : s.applyReset.status = 0b0000 := by
  change Result.ok.code ++ BitVec.ofBool false ++ BitVec.ofBool false = 0b0000
  decide

/-- Settles O9: after the reset input the registers of R250 hold what `State.resetWith` gives them, and BUF lists no byte. -/
theorem resetInputEffect : Obligations.ResetInputEffect := fun s rest h =>
  ⟨State.applyReset { s with host := rest }, step_of_reset h, rfl, rfl, rfl, rfl, status_applyReset _, fun _ => rfl, rfl,
    rfl, rfl, rfl⟩

/-! ### The state after reset (R46, R250) -/

/-- Neither memory lists a byte. -/
theorem memoryOk_resetWith (c : Config) : (State.resetWith c).MemoryOk where
  buf := rfl
  inside := nofun
  dev := rfl

theorem bounded_resetWith (c : Config) : Bounded (State.resetWith c) :=
  ⟨fun n _ => Nat.zero_le n, fun n _ => Nat.zero_le n⟩

/-- The block is idle with both counters at 0. -/
theorem control_resetWith (c : Config) : (State.resetWith c).Control :=
  control_of_idle rfl rfl rfl (bounded_resetWith c)

/-- Settles O50: both memories are empty, and the block is idle. -/
theorem invariantsHoldAtReset : Obligations.InvariantsHoldAtReset := fun c => ⟨memoryOk_resetWith c, control_resetWith c⟩

end Sys2Proof.Proofs.Reset
end
